-- ==== Sys2Proof/Word.lean ====
section
/-! DEFINITION. The word types of the module and the shape of its sparse tables. -/

namespace Sys2Proof

/-- A byte of memory, of a packet or of a flit (R9). -/
abbrev Byte := BitVec 8

/-- A 16-bit code: every stored value is at most this wide (R31). -/
abbrev Code := BitVec 16

/-- A 64-bit register, scalar register or aligned piece (R67, R93, R188). -/
abbrev Word := BitVec 64

/-- Sparse data by number: keys rising; a key that is not listed holds its table's default. -/
abbrev Tab (α : Type) := List (Nat × α)

/-- Dies by number (R5); the LX-24 has dies 0-23 of these. -/
abbrev Die := Fin 36

/-- Clusters of a die, and cores of a cluster (R7). -/
abbrev Cl := Fin 16

end Sys2Proof
end

