-- ==== Sys2Proof/Syntax.lean ====
section
/-! DEFINITION. The commands of the module: one constructor per row of spec/opcode_table.json, with its operands. -/

namespace Sys2Proof

/-- A core by die and core index, cluster × 16 + core (R7, R80). -/
structure CoreId where
  die : Die
  n : Fin 256
  deriving DecidableEq, Repr

/-- A cluster of a die (R7). -/
structure ClId where
  die : Die
  cl : Cl
  deriving DecidableEq, Repr

/-- A DMA channel of a cluster (R7, R203). -/
structure ChId where
  die : Die
  cl : Cl
  ch : Fin 32
  deriving DecidableEq, Repr

/-- Bits [119:106] of an instruction word (R64). -/
structure Hdr where
  wen : Bool
  wsem : BitVec 6
  sen : Bool
  ssem : BitVec 6
  deriving DecidableEq, Repr

/-- Operand field of the MV, SY, CT and PW classes (R64). -/
structure SeqOp where
  xd : BitVec 5
  xa : BitVec 5
  xb : BitVec 5
  ad : BitVec 4
  func : BitVec 7
  imm : Word
  deriving DecidableEq, Repr

/-- Operand field of the MM class (R100). -/
structure MmOp where
  me : BitVec 2
  da : BitVec 4
  db : BitVec 4
  dout : BitVec 4
  acc : BitVec 3
  ta : Bool
  tb : Bool
  zero : Bool
  dest : Bool
  keep : Bool
  ornd : BitVec 2
  site : BitVec 16
  deriving DecidableEq, Repr

/-- A source specifier (R125). -/
structure Src where
  kind : BitVec 3
  num : BitVec 5
  bc : BitVec 2
  fmt : BitVec 4
  deriving DecidableEq, Repr

/-- Operand field of VOP, VLP, VPERM, VRED and of the SF forms (R124, R150). -/
structure VxOp where
  lop : BitVec 6
  s0 : Src
  s1 : Src
  s2 : Src
  dkind : Bool
  dnum : BitVec 5
  dfmt : BitVec 4
  rnd : BitVec 2
  site : BitVec 16
  ecm1 : BitVec 14
  imm16 : Code
  deriving DecidableEq, Repr

/-- Operand field of VLPLD (R133). -/
structure VlpldOp where
  slot : BitVec 4
  xa : BitVec 5
  imm : Word
  deriving DecidableEq, Repr

/-- Operand field of VOPT (R144). -/
structure VoptOp where
  dw : BitVec 4
  dg : BitVec 4
  dm : BitVec 4
  dv : BitVec 4
  xp : BitVec 5
  ecm1 : BitVec 14
  deriving DecidableEq, Repr

/-- A unit that completes instructions of a core (R62, R66, R78, R294). -/
inductive ExecUnit where
  | me (k : Fin 4)
  | ve
  | sfe
  /-- the acknowledgement of the oldest STX or DST -/
  | store
  /-- the compressor's completion of the oldest CQ -/
  | gc
  /-- the prefix lookup unit's acceptance of the oldest PQ -/
  | plu
  deriving DecidableEq, Repr

/-- What a memory's code finds in the protected unit a command reads (R195): a physical happening. -/
inductive Ecc where
  | clean
  | corrected
  | uncorrectable
  deriving DecidableEq, Repr

/-- Who issues a request into the fabric (R189). -/
inductive ReqSrc where
  | core (n : Fin 256)
  | dma (cl : Cl) (ch : Fin 32)
  | compressor (cl : Cl)
  | plu
  | dieController
  | link
  | cxl
  deriving DecidableEq, Repr

/-- What befalls a lane of a link (R323). -/
structure LaneFault where
  lane : Fin 7
  /-- its corrected bytes in a 1 ms window; none where it lost its light -/
  count : Option (BitVec 32)
  deriving DecidableEq, Repr

/-- A request performed at its home (R189, R190). -/
structure MemReq where
  /-- the die whose unit issues it -/
  die : Die
  src : ReqSrc
  write : Bool
  addr : Word
  len : Nat
  data : List Byte
  ecc : Ecc
  deriving DecidableEq, Repr

/-- The four directions of a mesh edge, 0 N, 1 E, 2 S, 3 W (R473). -/
abbrev Dir := Fin 4

/-- Where a register write lands (R93, R386, R431). -/
inductive RegSpace where
  /-- the register region of R176, by global address on the module -/
  | region
  /-- the power block of a die, private to its die controller (R431) -/
  | power (d : Die)
  /-- the MCI block in BAR0 (R386) -/
  | bar0
  /-- configuration space, the component registers in BAR2 and the MSI-X table in BAR4 (R379, R381) -/
  | config
  | bar2
  | bar4
  deriving DecidableEq, Repr

/-- A Steelyard partial between nodes (R305, R307). -/
structure StyMsg where
  step : BitVec 32
  /-- module level (false) or system level (true) -/
  system : Bool
  /-- the position of the sending subtree among the participants of that level -/
  pos : Nat
  hi : Code
  lo : Code
  deriving DecidableEq, Repr

/-- The clipping factor on its way down the tree (R306). -/
structure StyDown where
  step : BitVec 32
  clip : Code
  nonfinite : Bool
  sumh : Code
  suml : Code
  deriving DecidableEq, Repr

/-- A transport packet (R325): the header's fields and the data. -/
structure TPkt where
  hop : BitVec 4
  epoch : BitVec 8
  len : BitVec 9
  tag : BitVec 32
  addr : Word
  smod : BitVec 9
  sdie : BitVec 6
  sunit : BitVec 16
  status : BitVec 8
  data : List Byte
  deriving DecidableEq, Repr

/-- A NEG message (R328). -/
structure NegMsg where
  acked : Bool
  vmin : BitVec 8
  vmax : BitVec 8
  feat : BitVec 16
  algrev : BitVec 8
  part : BitVec 8
  physid : Word
  pos : BitVec 10
  lmod : BitVec 9
  nolmod : Bool
  die : BitVec 6
  row : BitVec 3
  col : BitVec 3
  epoch : BitVec 32
  fwrev : BitVec 16
  deriving DecidableEq, Repr

/-- What a training phase found (R322, R327). -/
structure TrainResult where
  ok : Bool
  /-- lanes that passed, receive and transmit direction, bit L for lane L (lane test and map) -/
  rxPass : BitVec 7
  txPass : BitVec 7
  deriving DecidableEq, Repr

/-- Causes of a power-down (R461). -/
inductive DownCause where
  | undervoltage
  | overvoltage
  | disabled
  deriving DecidableEq, Repr

/-- What a boot stage found (R441, R442). -/
structure BootResult where
  /-- B1: the key regenerates and the authenticated flash passes its check (R436, R441) -/
  ok : Bool
  /-- B2: how many dies answer on the spine (R444) -/
  answer : Nat
  /-- B5: clusters that failed self-test, by die × 16 + cluster; B6: dies that did not boot, by number -/
  failed : List Nat
  /-- B6: stacks that failed their boot test, by die × 4 + controller -/
  badStacks : List Nat
  /-- B6: dies whose external link is absent or did not pass boot (R199: DIE_CAP.LINK) -/
  noLink : List Nat
  deriving DecidableEq, Repr

/-- The algorithms that an SPDM requester offers and the responder supports (R450): ML-DSA-65, ML-KEM-768, SHA3-384 and
AES-256-GCM. -/
structure SpdmOffer where
  dsa : Bool
  kem : Bool
  sha3 : Bool
  aes : Bool
  deriving DecidableEq, Repr

/-- The commands, in the order of spec/opcode_table.json. -/
inductive Instr where
  -- sequencer (R62): scalar, descriptor and issue forms of MV
  | movi (c : CoreId) (h : Hdr) (o : SeqOp)
  | alu (c : CoreId) (h : Hdr) (o : SeqOp)
  | ldx (c : CoreId) (h : Hdr) (o : SeqOp)
  | stx (c : CoreId) (h : Hdr) (o : SeqOp)
  | dld (c : CoreId) (h : Hdr) (o : SeqOp)
  | dst (c : CoreId) (h : Hdr) (o : SeqOp)
  | dset (c : CoreId) (h : Hdr) (o : SeqOp)
  | dadv (c : CoreId) (h : Hdr) (o : SeqOp)
  | srd (c : CoreId) (h : Hdr) (o : SeqOp)
  | swr (c : CoreId) (h : Hdr) (o : SeqOp)
  | dq (c : CoreId) (h : Hdr) (o : SeqOp)
  | cq (c : CoreId) (h : Hdr) (o : SeqOp)
  | pq (c : CoreId) (h : Hdr) (o : SeqOp)
  -- CT
  | nop (c : CoreId) (h : Hdr) (o : SeqOp)
  | br (c : CoreId) (h : Hdr) (o : SeqOp)
  | call (c : CoreId) (h : Hdr) (o : SeqOp)
  | ret (c : CoreId) (h : Hdr) (o : SeqOp)
  | loop (c : CoreId) (h : Hdr) (o : SeqOp)
  | brk (c : CoreId) (h : Hdr) (o : SeqOp)
  | halt (c : CoreId) (h : Hdr) (o : SeqOp)
  -- SY
  | ssig (c : CoreId) (h : Hdr) (o : SeqOp)
  | swait (c : CoreId) (h : Hdr) (o : SeqOp)
  | rsig (c : CoreId) (h : Hdr) (o : SeqOp)
  | fence (c : CoreId) (h : Hdr) (o : SeqOp)
  | bar (c : CoreId) (h : Hdr) (o : SeqOp)
  | qpost (c : CoreId) (h : Hdr) (o : SeqOp)
  | draw (c : CoreId) (h : Hdr) (o : SeqOp)
  | retire (c : CoreId) (h : Hdr) (o : SeqOp)
  | account (c : CoreId) (h : Hdr) (o : SeqOp)
  | take (c : CoreId) (h : Hdr) (o : SeqOp)
  | send (c : CoreId) (h : Hdr) (o : SeqOp)
  -- PW
  | wait (c : CoreId) (h : Hdr) (o : SeqOp)
  -- MM
  | mma (c : CoreId) (h : Hdr) (o : MmOp)
  | mmao (c : CoreId) (h : Hdr) (o : MmOp)
  | mout (c : CoreId) (h : Hdr) (o : MmOp)
  | minit (c : CoreId) (h : Hdr) (o : MmOp)
  -- VX
  | vop (c : CoreId) (h : Hdr) (o : VxOp)
  | vlp (c : CoreId) (h : Hdr) (o : VxOp)
  | vlpld (c : CoreId) (h : Hdr) (o : VlpldOp)
  | vperm (c : CoreId) (h : Hdr) (o : VxOp)
  | vred (c : CoreId) (h : Hdr) (o : VxOp)
  | vopt (c : CoreId) (h : Hdr) (o : VoptOp)
  -- SF
  | sfn (c : CoreId) (h : Hdr) (o : VxOp)
  | sfd (c : CoreId) (h : Hdr) (o : VxOp)
  | stld (c : CoreId) (h : Hdr) (o : VxOp)
  | rsmax (c : CoreId) (h : Hdr) (o : VxOp)
  | rsexp (c : CoreId) (h : Hdr) (o : VxOp)
  | rsmom (c : CoreId) (h : Hdr) (o : VxOp)
  | rsctl (c : CoreId) (h : Hdr) (o : VxOp)
  -- core events
  | instructionComplete (c : CoreId) (u : ExecUnit)
  | loadDataReturn (c : CoreId) (ecc : Ecc)
  | engineQueueFree (c : CoreId)
  | semaphoreWaitRelease (c : CoreId)
  | fenceRelease (c : CoreId)
  /-- cluster scope: `some cl`; die scope: `none` -/
  | barrierRelease (d : Die) (cl : Option Cl) (b : Fin 8)
  | conveyorSlotFree (c : CoreId) (k : Fin 4)
  /-- `request`: the die controller's wake request (R87) -/
  | coreWake (c : CoreId) (request : Bool)
  | coreWtimeExpiry (c : CoreId)
  | watchdog (c : CoreId)
  | coreDone (c : CoreId)
  -- register writes with behaviour of their own
  | coreClrcnt (c : CoreId)
  /-- `run`: the same write sets RUN (R94) -/
  | coreReset (c : CoreId) (run : Bool)
  | coreRun (c : CoreId)
  | semWrite (c : CoreId) (k : BitVec 6) (v : Word)
  | meClrcnt (c : CoreId) (k : Fin 4)
  | veClrcnt (c : CoreId)
  | sfeClrcnt (c : CoreId)
  | scClrcnt (c : ClId)
  | scHeadWrite (c : ClId) (v : Word)
  | scTailWrite (c : ClId) (v : Word)
  | scEvent (c : ClId) (v : Word)
  | hbmSpareStart (d : Die) (k : Fin 4) (chan : BitVec 5)
  | dmaClrcnt (c : ClId)
  | pauseall (c : ClId) (b : Bool)
  | chClrcnt (c : ChId)
  | chPause (c : ChId) (b : Bool)
  | chAbort (c : ChId)
  | chClear (c : ChId)
  | chDq (c : ChId) (addr : Word)
  | gcClrcnt (c : ClId)
  | redClrcnt (d : Die)
  | styClrcnt (d : Die)
  | pluClrcnt (d : Die)
  | lkClrcnt (d : Die)
  | lkRetrain (d : Die)
  | lkEnable (d : Die) (b : Bool)
  | dvfsRequest (d : Die) (step : BitVec 3)
  | pwrClkselWrite (d : Die) (b : Bool)
  | padholdRelease (d : Die) (mask : BitVec 5)
  | registerWrite (sp : RegSpace) (addr : Nat) (v : Word)
  | pwait (d : Die)
  -- DMA
  | descriptorHead (c : ChId)
  | burstGrant (c : ClId)
  | burstReadReturn (c : ChId) (ecc : Ecc)
  | writeAck (c : ChId)
  | chainedDescriptorArrival (c : ChId) (ecc : Ecc)
  | dmaAgeExpiry (c : ChId)
  | dmaTimeout (c : ChId)
  | channelDrainComplete (c : ChId)
  -- memory and mesh
  | memoryRequest (r : MemReq)
  | scrubRead (addr : Word) (ecc : Ecc)
  | spareCopyDone (d : Die) (k : Fin 4)
  | rowRepair (d : Die) (k : Fin 4) (row : Nat)
  | meshSlip (d : Die) (dir : Dir)
  | meshFlitCrcError (d : Die) (dir : Dir)
  -- compressor, lookup, reduction, Steelyard
  | gcCommand (c : ClId)
  | pluLookup (d : Die)
  | pluComplete (d : Die)
  | redPoll (d : Die)
  | redTimeout (d : Die)
  | styMessage (d : Die) (m : StyMsg)
  | styBroadcast (d : Die) (m : StyDown)
  | slotSwap (c : CoreId) (k : Fin 4)
  | dieClose (d : Die)
  | dieStepFailed (d : Die)
  /-- `dstep`: D_step as the lead module returns it; read only on a module that is not the lead (R356);
  `others`: D_mod of the stall's other modules in ascending order, read only on the lead -/
  | stepClose (stall : Fin 256) (dstep : Word) (others : List Word) (loss : BitVec 32)
  | fillComplete
  -- link
  | flitReceive (d : Die) (flit : List Byte) (errA errB : Nat)
  | ackTimer (d : Die)
  | replayTimeout (d : Die)
  | laneFail (d : Die) (f : LaneFault)
  | swap (d : Die) (lane : BitVec 3)
  | swapack (d : Die) (lane : BitVec 3) (refuse : Bool)
  | alignmentBlock (d : Die) (map : BitVec 7)
  | neg (d : Die) (m : NegMsg)
  | negResend (d : Die)
  | lossOfLight (d : Die)
  | trainingPhaseComplete (d : Die) (r : TrainResult)
  | read (d : Die) (p : TPkt)
  | write (d : Die) (p : TPkt)
  | rdata (d : Die) (p : TPkt)
  | wack (d : Die) (p : TPkt)
  | notice (d : Die) (p : TPkt)
  | count (d : Die) (p : TPkt)
  | crierFlush (d : Die)
  | crierExpiry (d : Die) (fid : Word)
  | laserFail (row : Fin 6)
  | latchOpen (row : Fin 6)
  -- host attachment
  /-- `ring`: the bytes of the slots from HEAD up to the tail written, in ring order; `bad`: the ring read
  returned poison or a CXL.cache error -/
  | doorbell (q : Fin 16) (tail : Word) (ring : List Byte) (bad : Bool)
  | completionRelease (q : Fin 17) (head : Word)
  | queueEnable (q : Fin 17)
  | queueDisable (q : Fin 17)
  | completionWrite (q : Fin 17)
  | coalTimer (q : Fin 17)
  | windowRead (off len : Nat) (ecc : Ecc)
  | windowWrite (off : Nat) (data : List Byte)
  | functionLevelReset
  | hotReset
  | cxlReset
  | cxlLinkDown
  | mgmtDatagram (sender : Nat) (pkt : List Byte)
  | i3cPrivateWrite (bytes : List Byte)
  | i3cPrivateRead (len : Nat)
  | smbusBlockWrite (code : Byte) (bytes : List Byte)
  | smbusBlockRead
  -- MCI commands, each the packet at the front of its path (0-15 queues, 16 management, 17 I3C)
  | discover (p : Fin 18)
  | echo (p : Fin 18)
  | stallForm (p : Fin 18)
  | stallDissolve (p : Fin 18)
  | jobConfig (p : Fin 18)
  | jobEnd (p : Fin 18)
  | stallHold (p : Fin 18)
  | stallRelease (p : Fin 18)
  | stallQuery (p : Fin 18)
  | windowMap (p : Fin 18)
  | progLoad (p : Fin 18)
  | dataCopy (p : Fin 18)
  | chainSet (p : Fin 18)
  | exchSet (p : Fin 18)
  | stepBegin (p : Fin 18)
  | stepEnd (p : Fin 18)
  | stepQuery (p : Fin 18)
  | protectSet (p : Fin 18)
  | mirrorAssign (p : Fin 18)
  | snapRelease (p : Fin 18)
  | fillStart (p : Fin 18)
  | fillQuery (p : Fin 18)
  | restore (p : Fin 18)
  | pwrSet (p : Fin 18)
  | pwrQuery (p : Fin 18)
  | feedSet (p : Fin 18)
  | attest (p : Fin 18)
  | certRead (p : Fin 18)
  | faultQuery (p : Fin 18)
  | telemRead (p : Fin 18)
  | counterRead (p : Fin 18)
  | fwStage (p : Fin 18)
  | fwActivate (p : Fin 18)
  | fwQuery (p : Fin 18)
  | linkQuery (p : Fin 18)
  | linkService (p : Fin 18)
  | topoLoad (p : Fin 18)
  -- SPDM requests over the DOE mailbox, with the request's bytes
  | getVersion (req : List Byte)
  | getCapabilities (version : Byte) (req : List Byte)
  | negotiateAlgorithms (offer : SpdmOffer) (req : List Byte)
  | getDigests (req : List Byte)
  | getCertificate (slot : BitVec 4) (off len : Nat) (req : List Byte)
  | challenge (req : List Byte)
  | getMeasurements (index : Nat) (signed : Bool) (req : List Byte)
  | keyExchange (req : List Byte)
  | finish (session : Nat) (ok : Bool) (req : List Byte)
  | keyUpdate (session : Nat) (req : List Byte)
  | heartbeat (session : Nat) (req : List Byte)
  | endSession (session : Nat) (req : List Byte)
  | keyProg (session : Option Nat) (stream : Fin 4) (key : List Byte)
  -- power, clocks, boot, electrical
  | powerRequestGrant
  | dvfsRampDone (d : Die)
  | thermalEvaluation (tj : List Int)
  | lugMonitor (ma : List Nat)
  | entryPoint (d : Die)
  | wakeEvent (d : Die) (ev : Fin 6)
  | exitStep (d : Die)
  | pwrTimerExpiry (d : Die)
  | tpulseEdge
  | refclkLoss
  | refclkReturn
  | resetNAssert
  | resetNRelease
  | pwrEnAssert
  | powerDownTrigger (cause : DownCause)
  | powerUpStage
  | bootStage (r : BootResult)
  | inputVoltageInRange
  /-- `owner`: the unacknowledged write is at the owner, else at the guardian -/
  | tallyAckTimeout (stall : Fin 256) (owner : Bool)
  | latchClose (row : Fin 6)
  | meshRecentreComplete (d : Die) (dir : Dir) (ok : Bool)
  | rowRepairDone (d : Die) (k : Fin 4)
  | domainSwitchDone (k : Fin 100)
  | coolantOutletWarning (outlet : Int)
  | dynamicAddressAssignment (addr : BitVec 7)
  deriving DecidableEq, Repr

end Sys2Proof
end

