-- ==== Sys2Proof/Decode.lean ====
section
/-! DEFINITION. Commands by table words, and the 128-bit words that core instructions are stored as (R64, R65, R78-R80, R99,
R100, R123-R125, R133, R144, R149, R150, R284). -/

namespace Sys2Proof

/-- The command that a word of spec/opcode_table.json spells: the table gives none of its rows any bits. -/
def decodeTableWord (_nbits _w : Nat) : Option Instr := none

/-! Encoding. -/

/-- Bits [119:106] (R64). -/
def encHdr (h : Hdr) : BitVec 14 := BitVec.ofBool h.wen ++ h.wsem ++ BitVec.ofBool h.sen ++ h.ssem

/-- The word with a CLASS, an OP, its header and its operand field (R64). -/
def encWord (cls op : BitVec 4) (h : Hdr) (o : BitVec 106) : BitVec 128 := cls ++ op ++ encHdr h ++ o

/-- Operand field of MV, SY, CT and PW (R64). -/
def encSeq (o : SeqOp) : BitVec 106 := o.xd ++ o.xa ++ o.xb ++ o.ad ++ o.func ++ (0 : BitVec 16) ++ o.imm

/-- Operand field of MM (R100). -/
def encMm (o : MmOp) : BitVec 106 :=
  o.me ++ o.da ++ o.db ++ o.dout ++ o.acc ++ BitVec.ofBool o.ta ++ BitVec.ofBool o.tb ++ BitVec.ofBool o.zero
    ++ BitVec.ofBool o.dest ++ BitVec.ofBool o.keep ++ o.ornd ++ o.site ++ (0 : BitVec 66)

/-- A source specifier (R125). -/
def encSrc (o : Src) : BitVec 14 := o.kind ++ o.num ++ o.bc ++ o.fmt

/-- Operand field of VOP, VLP, VPERM, VRED and of SF (R124, R150). -/
def encVx (o : VxOp) : BitVec 106 :=
  o.lop ++ encSrc o.s0 ++ encSrc o.s1 ++ encSrc o.s2 ++ BitVec.ofBool o.dkind ++ o.dnum ++ o.dfmt ++ o.rnd ++ o.site
    ++ o.ecm1 ++ o.imm16

/-- Operand field of VLPLD (R133). -/
def encVlpld (o : VlpldOp) : BitVec 106 := o.slot ++ (0 : BitVec 1) ++ o.xa ++ (0 : BitVec 32) ++ o.imm

/-- Operand field of VOPT (R144). -/
def encVopt (o : VoptOp) : BitVec 106 := o.dw ++ o.dg ++ o.dm ++ o.dv ++ o.xp ++ o.ecm1 ++ (0 : BitVec 71)

/-- The word of a core instruction; none for a command that is not one. -/
def encode (i : Instr) : Option (BitVec 128) :=
  match i with
  | .movi _ h o => some (encWord 4 0 h (encSeq o))
  | .alu _ h o => some (encWord 4 1 h (encSeq o))
  | .ldx _ h o => some (encWord 4 2 h (encSeq o))
  | .stx _ h o => some (encWord 4 3 h (encSeq o))
  | .dld _ h o => some (encWord 4 4 h (encSeq o))
  | .dst _ h o => some (encWord 4 5 h (encSeq o))
  | .dset _ h o => some (encWord 4 6 h (encSeq o))
  | .dadv _ h o => some (encWord 4 7 h (encSeq o))
  | .srd _ h o => some (encWord 4 8 h (encSeq o))
  | .swr _ h o => some (encWord 4 9 h (encSeq o))
  | .dq _ h o => some (encWord 4 10 h (encSeq o))
  | .cq _ h o => some (encWord 4 11 h (encSeq o))
  | .pq _ h o => some (encWord 4 12 h (encSeq o))
  | .nop _ h o => some (encWord 6 0 h (encSeq o))
  | .br _ h o => some (encWord 6 1 h (encSeq o))
  | .call _ h o => some (encWord 6 2 h (encSeq o))
  | .ret _ h o => some (encWord 6 3 h (encSeq o))
  | .loop _ h o => some (encWord 6 4 h (encSeq o))
  | .brk _ h o => some (encWord 6 5 h (encSeq o))
  | .halt _ h o => some (encWord 6 6 h (encSeq o))
  | .ssig _ h o => some (encWord 5 0 h (encSeq o))
  | .swait _ h o => some (encWord 5 1 h (encSeq o))
  | .rsig _ h o => some (encWord 5 2 h (encSeq o))
  | .fence _ h o => some (encWord 5 3 h (encSeq o))
  | .bar _ h o => some (encWord 5 4 h (encSeq o))
  | .qpost _ h o => some (encWord 5 5 h (encSeq o))
  | .draw _ h o => some (encWord 5 6 h (encSeq o))
  | .retire _ h o => some (encWord 5 6 h (encSeq o))
  | .account _ h o => some (encWord 5 6 h (encSeq o))
  | .take _ h o => some (encWord 5 7 h (encSeq o))
  | .send _ h o => some (encWord 5 7 h (encSeq o))
  | .wait _ h o => some (encWord 7 0 h (encSeq o))
  | .mma _ h o => some (encWord 1 0 h (encMm o))
  | .mmao _ h o => some (encWord 1 1 h (encMm o))
  | .mout _ h o => some (encWord 1 2 h (encMm o))
  | .minit _ h o => some (encWord 1 3 h (encMm o))
  | .vop _ h o => some (encWord 2 0 h (encVx o))
  | .vlp _ h o => some (encWord 2 1 h (encVx o))
  | .vperm _ h o => some (encWord 2 3 h (encVx o))
  | .vred _ h o => some (encWord 2 4 h (encVx o))
  | .vlpld _ h o => some (encWord 2 2 h (encVlpld o))
  | .vopt _ h o => some (encWord 2 5 h (encVopt o))
  | .sfn _ h o => some (encWord 3 0 h (encVx o))
  | .sfd _ h o => some (encWord 3 1 h (encVx o))
  | .stld _ h o => some (encWord 3 2 h (encVx o))
  | .rsmax _ h o => some (encWord 3 3 h (encVx o))
  | .rsexp _ h o => some (encWord 3 4 h (encVx o))
  | .rsmom _ h o => some (encWord 3 5 h (encVx o))
  | .rsctl _ h o => some (encWord 3 6 h (encVx o))
  | _ => none

/-! Decoding. -/

/-- `n` bits of a word from bit `lo`. -/
def fieldOf (w : BitVec 128) (lo n : Nat) : BitVec n := w.extractLsb' lo n

/-- One bit of a word. -/
def flagOf (w : BitVec 128) (lo : Nat) : Bool := w.getLsbD lo

/-- Bits [119:106] (R64). -/
def decHdr (w : BitVec 128) : Hdr := ⟨flagOf w 119, fieldOf w 113 6, flagOf w 112, fieldOf w 106 6⟩

/-- Operand field of MV, SY, CT and PW (R64). -/
def decSeq (w : BitVec 128) : SeqOp :=
  ⟨fieldOf w 101 5, fieldOf w 96 5, fieldOf w 91 5, fieldOf w 87 4, fieldOf w 80 7, fieldOf w 0 64⟩

/-- Operand field of MM (R100). -/
def decMm (w : BitVec 128) : MmOp :=
  ⟨fieldOf w 104 2, fieldOf w 100 4, fieldOf w 96 4, fieldOf w 92 4, fieldOf w 89 3, flagOf w 88, flagOf w 87, flagOf w 86,
   flagOf w 85, flagOf w 84, fieldOf w 82 2, fieldOf w 66 16⟩

/-- A source specifier from bit `lo` (R125). -/
def decSrc (w : BitVec 128) (lo : Nat) : Src :=
  ⟨fieldOf w (lo + 11) 3, fieldOf w (lo + 6) 5, fieldOf w (lo + 4) 2, fieldOf w lo 4⟩

/-- Operand field of VOP, VLP, VPERM, VRED and of SF (R124, R150). -/
def decVx (w : BitVec 128) : VxOp :=
  ⟨fieldOf w 100 6, decSrc w 86, decSrc w 72, decSrc w 58, flagOf w 57, fieldOf w 52 5, fieldOf w 48 4, fieldOf w 46 2,
   fieldOf w 30 16, fieldOf w 16 14, fieldOf w 0 16⟩

/-- Operand field of VLPLD (R133). -/
def decVlpld (w : BitVec 128) : VlpldOp := ⟨fieldOf w 102 4, fieldOf w 96 5, fieldOf w 0 64⟩

/-- Operand field of VOPT (R144). -/
def decVopt (w : BitVec 128) : VoptOp :=
  ⟨fieldOf w 102 4, fieldOf w 98 4, fieldOf w 94 4, fieldOf w 90 4, fieldOf w 85 5, fieldOf w 71 14⟩

/-- MV (R78). -/
def decMv (c : CoreId) (w : BitVec 128) (op : Nat) : Option Instr :=
  match op with
  | 0 => some (.movi c (decHdr w) (decSeq w))
  | 1 => some (.alu c (decHdr w) (decSeq w))
  | 2 => some (.ldx c (decHdr w) (decSeq w))
  | 3 => some (.stx c (decHdr w) (decSeq w))
  | 4 => some (.dld c (decHdr w) (decSeq w))
  | 5 => some (.dst c (decHdr w) (decSeq w))
  | 6 => some (.dset c (decHdr w) (decSeq w))
  | 7 => some (.dadv c (decHdr w) (decSeq w))
  | 8 => some (.srd c (decHdr w) (decSeq w))
  | 9 => some (.swr c (decHdr w) (decSeq w))
  | 10 => some (.dq c (decHdr w) (decSeq w))
  | 11 => some (.cq c (decHdr w) (decSeq w))
  | 12 => some (.pq c (decHdr w) (decSeq w))
  | _ => none

/-- CT (R79). -/
def decCt (c : CoreId) (w : BitVec 128) (op : Nat) : Option Instr :=
  match op with
  | 0 => some (.nop c (decHdr w) (decSeq w))
  | 1 => some (.br c (decHdr w) (decSeq w))
  | 2 => some (.call c (decHdr w) (decSeq w))
  | 3 => some (.ret c (decHdr w) (decSeq w))
  | 4 => some (.loop c (decHdr w) (decSeq w))
  | 5 => some (.brk c (decHdr w) (decSeq w))
  | 6 => some (.halt c (decHdr w) (decSeq w))
  | _ => none

/-- SY (R80, R284). -/
def decSy (c : CoreId) (w : BitVec 128) (op : Nat) : Option Instr :=
  match op, (fieldOf w 80 2).toNat with
  | 0, _ => some (.ssig c (decHdr w) (decSeq w))
  | 1, _ => some (.swait c (decHdr w) (decSeq w))
  | 2, _ => some (.rsig c (decHdr w) (decSeq w))
  | 3, _ => some (.fence c (decHdr w) (decSeq w))
  | 4, _ => some (.bar c (decHdr w) (decSeq w))
  | 5, 0 => some (.qpost c (decHdr w) (decSeq w))
  | 6, 0 => some (.draw c (decHdr w) (decSeq w))
  | 6, 1 => some (.retire c (decHdr w) (decSeq w))
  | 6, 2 => some (.account c (decHdr w) (decSeq w))
  | 7, 0 => some (.take c (decHdr w) (decSeq w))
  | 7, 1 => some (.send c (decHdr w) (decSeq w))
  | _, _ => none

/-- MM (R99). -/
def decMmClass (c : CoreId) (w : BitVec 128) (op : Nat) : Option Instr :=
  match op with
  | 0 => some (.mma c (decHdr w) (decMm w))
  | 1 => some (.mmao c (decHdr w) (decMm w))
  | 2 => some (.mout c (decHdr w) (decMm w))
  | 3 => some (.minit c (decHdr w) (decMm w))
  | _ => none

/-- VX (R123). -/
def decVxClass (c : CoreId) (w : BitVec 128) (op : Nat) : Option Instr :=
  match op with
  | 0 => some (.vop c (decHdr w) (decVx w))
  | 1 => some (.vlp c (decHdr w) (decVx w))
  | 2 => some (.vlpld c (decHdr w) (decVlpld w))
  | 3 => some (.vperm c (decHdr w) (decVx w))
  | 4 => some (.vred c (decHdr w) (decVx w))
  | 5 => some (.vopt c (decHdr w) (decVopt w))
  | _ => none

/-- SF (R149). -/
def decSf (c : CoreId) (w : BitVec 128) (op : Nat) : Option Instr :=
  match op with
  | 0 => some (.sfn c (decHdr w) (decVx w))
  | 1 => some (.sfd c (decHdr w) (decVx w))
  | 2 => some (.stld c (decHdr w) (decVx w))
  | 3 => some (.rsmax c (decHdr w) (decVx w))
  | 4 => some (.rsexp c (decHdr w) (decVx w))
  | 5 => some (.rsmom c (decHdr w) (decVx w))
  | 6 => some (.rsctl c (decHdr w) (decVx w))
  | _ => none

/-- The instruction that a word spells for a core; none for a reserved CLASS, OP or sub-operation, which is illegal
(R65, R286). -/
def decode (c : CoreId) (w : BitVec 128) : Option Instr :=
  let op := (fieldOf w 120 4).toNat
  match (fieldOf w 124 4).toNat with
  | 1 => decMmClass c w op
  | 2 => decVxClass c w op
  | 3 => decSf c w op
  | 4 => decMv c w op
  | 5 => decSy c w op
  | 6 => decCt c w op
  | 7 => if op = 0 then some (.wait c (decHdr w) (decSeq w)) else none
  | _ => none

end Sys2Proof
end

