-- ==== Sys2Proof/Config.lean ====
section
/-! DEFINITION. What the manual leaves open: the free values, each an opaque constant, and the cited standards. -/

namespace Sys2Proof.Config

/-- Free value (log 6, R155): the 24-bit significand and the exponent with which an SFE of algorithm revision
`algrev` returns built-in function `fn` (`deriv = true`: its derivative, R157) of the finite input
`(-1)^neg * man * 2^exp`, as a sign, a significand below 2^24 and an exponent.  R153 bounds it; see
`Safety.BuiltinBound`. -/
opaque sfeValue (algrev fn : Nat) (deriv : Bool) (neg : Bool) (man : Nat) (exp : Int) : Bool × Nat × Int

/-- ML-DSA-65 (FIPS 204): the signature bytes of a message under the key pair that a seed gives (R436, R448, R450;
log 8). -/
opaque mlDsaSign (seed context msg : List Byte) : List Byte

/-- ML-DSA-65: whether a signature over a message verifies under a public key (R439; log 8). -/
opaque mlDsaVerify (key context msg sig : List Byte) : Bool

/-- The public key in an X.509 certificate (R439; log 8). -/
opaque certKey (cert : List Byte) : List Byte

/-- Whether a certificate verifies to the root whose public key has a digest (R439; log 8). -/
opaque certRooted (cert : List Byte) (root : BitVec 512) : Bool

/-- The root-key digest in the mask ROM (R439; log 8). -/
opaque romRoot : BitVec 512

/-- The signer certificates in boot flash as shipped, by KEYID (R440; log 4). -/
opaque signerCert (keyid : Nat) : List Byte

/-- The signature of a signed object as shipped, by TYPE (R438, R440; log 4). -/
opaque factorySig (ty : Nat) : List Byte

/-- New signer certificates that a bundle's body carries, if any, for KEYID 1 and 2 (R440); the manual does not lay out the
body (log 41). -/
opaque bundleSigners (body : List Byte) : Option (List Byte × List Byte)

/-- The logical number of the failed core that a repair table maps out of a cluster, if any (R92); the manual does not lay
out the table (log 140). -/
opaque repairCore (table : List Byte) (die cluster : Nat) : Option (Fin 16)

/-- The logical position of the failed column that a repair table maps out of a matrix engine, if any (R98; log 140). -/
opaque repairColumn (table : List Byte) (die core me : Nat) : Option (Fin 32)

/-- The 64 bytes of a repair-log record (R445) with its tag, by serial number, stack and row; the manual names the
record's contents and not their places (log 8). -/
opaque repairRecord (serial stack row : Nat) : List Byte

/-- KMAC256 (SP 800-185): whether the tag of a repair-log record verifies (R445; log 8). -/
opaque kmacOk (record : List Byte) : Bool

/-- The X.509 certificate chain of slot 0 (R437), which the manual does not print (log 8). -/
opaque certChain : List Byte

/-- The body of an SPDM response (DSP0274), which the manual does not lay out (R450; log 9): the request code,
the version, the request's bytes, the content that the manual does state and a fresh number give the response's bytes. -/
opaque spdmBody (request version : Nat) (req content : List Byte) (fresh : Nat) : List Byte

/-- What an SPDM response signs (DSP0274: context and transcript), by request code, version, request and the counter of
free values (R450; log 9). -/
opaque spdmSigned (request version : Nat) (req : List Byte) (n : Nat) : List Byte

/-- ML-KEM-768 (FIPS 203): the ciphertext that a KEY_EXCHANGE answers, and the session key it gives (R450; log 9). -/
opaque mlKemCipher (req : List Byte) (n : Nat) : List Byte

/-- See `mlKemCipher`. -/
opaque mlKemKey (req : List Byte) (n : Nat) : List Byte

/-- The AES-256-GCM key that follows another at KEY_UPDATE (R450; log 9). -/
opaque nextKey (key : List Byte) : List Byte

/-- A free word for a value the manual leaves open; `n` is the state's counter of free values (log 2). -/
opaque freeWord (n : Nat) : Word

/-- The physical position at which the module stands in its system (R328: POS); the manual does not say how the module
learns it (log 13). -/
opaque position : Nat

/-- What a sensor finds (TELEM_READ, R434): rail voltage, temperature, power, clock and energy words of a clock domain,
by domain, field and the counter of free values (log 12). -/
opaque sensor (domain field n : Nat) : Word

/-- Place, within a module's address space, of an item that a guardian keeps for a stall of a ward (R346, R360): area 0 the
Tally; 1 the generation words, by parity; 2 the mirrored checkpoint slots, by die × 2 + parity; 3 the mirror generations, by
extent × 2 + parity.  The manual gives a guard area's base and size and not its layout (log 14). -/
opaque guardPlace (guardian ward stall area item : Nat) : BitVec 55

/-- What this module finds of another (R363, R371), which the manual does not say how it learns: its power-feed
identifier, its algorithm revision, the bytes its guard area has room for, and the bytes it needs as a ward (log 14). -/
opaque peerFeed (lmod n : Nat) : BitVec 16

/-- See `peerFeed`. -/
opaque peerAlgrev (lmod n : Nat) : BitVec 8

/-- See `peerFeed`. -/
opaque guardRoom (lmod n : Nat) : Nat

/-- See `peerFeed`. -/
opaque wardNeed (lmod n : Nat) : Nat

/-- Whether some extent of another module of a stall is SNAPSHOT (R362), by stall and the counter of free values; the manual
does not say how a module learns it (log 147). -/
opaque peerSnapshot (stall n : Nat) : Bool

/-- Whether every other module of a stall has returned STEP_END for the last step that this one closed (R366, R367), by
stall and the counter of free values (log 148). -/
opaque peersClosed (stall n : Nat) : Bool

/-- PHYSID of the module that stands for a logical module (R348, R436), by its number and the counter of free values
(log 149). -/
opaque peerPhysid (lmod n : Nat) : Word

/-- How far a channel copy has come (R197, R201: HBM_SPAREPOS; the spec gives the rate's upper bound only), by die,
controller and the counter of free values (log 123). -/
opaque sparePos (die ctl n : Nat) : Nat

/-- Check byte `i` of the RS(136,128) codeword over 128 bytes (R319): the manual names the code and not its field
polynomial and generator (log 139). -/
opaque rsCheck (word : List Byte) (i : Nat) : Byte

/-- What LK_LANE of a lane reads (R344: received power, bytes corrected in the last 1 ms window), by die, lane and the
counter of free values (log 82). -/
opaque laneSense (die lane n : Nat) : Word

/-- The identity record of the `n`th cartridge to stand in a row's bay (R454; log 7). -/
opaque cartridge (row n : Nat) : List Byte

/-- Whether the module accepts the PART of a cartridge (R454); the manual does not list the parts (log 7). -/
opaque cartridgePart (part : Nat) : Bool

end Sys2Proof.Config
end

