-- ==== Sys2Proof/Machine/Bits.lean ====
section
/-! DEFINITION. Bit fields, byte order (R9) and sparse tables: the helpers that every other file uses. -/

namespace Sys2Proof.Machine

/-- A register field by the byte offset of its register, its lowest bit and its width (R9). -/
structure Fld where
  off : Nat
  lo : Nat
  width : Nat
  deriving DecidableEq, Repr

/-- Bits [hi:lo] of a number (R9). -/
def bits (n hi lo : Nat) : Nat := (n >>> lo) % 2 ^ (hi + 1 - lo)

/-- The field's value in a register word. -/
def fget (w : Word) (f : Fld) : Nat := (w.toNat >>> f.lo) % 2 ^ f.width

/-- Ones in the field's place. -/
def fmask (f : Fld) : Word := BitVec.ofNat 64 (2 ^ f.width - 1) <<< f.lo

/-- The register word with the field replaced by `v` (its low bits). -/
def fset (w : Word) (f : Fld) (v : Nat) : Word :=
  (w &&& ~~~ fmask f) ||| ((BitVec.ofNat 64 v <<< f.lo) &&& fmask f)

/-- The entry of a table under a key, if it is listed. -/
def tlookup {α : Type} : Tab α → Nat → Option α
  | [], _ => none
  | (j, v) :: t, k => if k = j then some v else if k < j then none else tlookup t k

/-- The entry of a table under a key; a key that is not listed holds `d`. -/
def tget {α : Type} (d : α) (t : Tab α) (k : Nat) : α := (tlookup t k).getD d

/-- The table with the entry under `k` set. -/
def tset {α : Type} : Tab α → Nat → α → Tab α
  | [], k, v => [(k, v)]
  | (j, w) :: t, k, v =>
    if k = j then (k, v) :: t else if k < j then (k, v) :: (j, w) :: t else (j, w) :: tset t k v

/-- Little-endian bytes of a number (R9), at least significant first. -/
def leBytes : Nat → Nat → List Byte
  | 0, _ => []
  | k + 1, n => BitVec.ofNat 8 n :: leBytes k (n / 256)

/-- The number a little-endian list of bytes spells (R9). -/
def leNat : List Byte → Nat
  | [] => 0
  | b :: bs => b.toNat + 256 * leNat bs

/-- Little-endian bytes of a word. -/
def wordBytes (w : Word) : List Byte := leBytes 8 w.toNat

/-- A word from little-endian bytes. -/
def leWord (bs : List Byte) : Word := BitVec.ofNat 64 (leNat bs)

/-- `n` bytes of a list from offset `o`; what the list does not have reads 0. -/
def slice (bs : List Byte) (o n : Nat) : List Byte :=
  ((bs.drop o).take n) ++ List.replicate (n - ((bs.drop o).take n).length) 0

/-- A little-endian field of `n` bytes at offset `o`. -/
def leAt (bs : List Byte) (o n : Nat) : Nat := leNat (slice bs o n)

/-- The bytes with the field of `n` bytes at offset `o` replaced. -/
def putAt (bs : List Byte) (o : Nat) (new : List Byte) : List Byte :=
  slice bs 0 o ++ new ++ bs.drop (o + new.length)

/-- A list cut into pieces of `n` (the last may be short); `fuel` bounds the pieces. -/
def chunks {α : Type} (n : Nat) : Nat → List α → List (List α)
  | 0, _ => []
  | _, [] => []
  | fuel + 1, l => l.take n :: chunks n fuel (l.drop n)

/-- The little-endian words of a list of bytes. -/
def leWords (bs : List Byte) : List Word := (chunks 8 bs.length bs).map leWord

/-- Word `k` of a list; 0 where there is none. -/
def wd (l : List Word) (k : Nat) : Word := l.getD k 0

/-- Sign extension of the low `w` bits of a number. -/
def sext (w n : Nat) : Int :=
  let m := n % 2 ^ w
  if 2 * m < 2 ^ w then (m : Int) else (m : Int) - (2 ^ w : Nat)

/-- A flag as a number. -/
def b2n (b : Bool) : Nat := if b then 1 else 0

/-- The index of the first element that satisfies `p`. -/
def indexOf {α : Type} (p : α → Bool) : List α → Option Nat
  | [] => none
  | a :: l => if p a then some 0 else (indexOf p l).map (· + 1)

/-- The first requester in the rotating order of R25 from pointer `p` among `n`. -/
def rotFirst (n p : Nat) (asks : Nat → Bool) : Option Nat :=
  ((List.range n).map fun i => (p + i) % n).find? asks

/-- Ceiling of a quotient. -/
def ceilDiv (a b : Nat) : Nat := (a + b - 1) / b

/-- One step of CRC-32C a bit at a time: reflected polynomial 0x82F6_3B78 (log 8: the CRC that R319 names). -/
def crcBits : Nat → Nat → Nat
  | 0, c => c
  | k + 1, c => crcBits k (if c % 2 = 1 then (c / 2) ^^^ 0x82F63B78 else c / 2)

/-- CRC-32C of bytes (R319). -/
def crc32c (bs : List Byte) : Nat :=
  (bs.foldl (fun c b => crcBits 8 (c ^^^ b.toNat)) 0xFFFFFFFF) ^^^ 0xFFFFFFFF

end Sys2Proof.Machine
end

