-- ==== Sys2Proof/Machine/Keccak.lean ====
section
/-! DEFINITION. SHAKE256 and SHA3-384 (FIPS 202), which R436-R450 name: the digests of signed objects and measurements. -/

namespace Sys2Proof.Machine

/-- A 64-bit lane rotated left. -/
def rotl64 (a k : Nat) : Nat := (a <<< k ||| a >>> (64 - k)) % 2 ^ 64

/-- Exclusive or of 64-bit lanes, place by place. -/
def xorLanes (a b : List Nat) : List Nat := List.zipWith (· ^^^ ·) a b

/-- Rotation offsets of rho, x fastest. -/
def rhoOffsets : List Nat :=
  [0, 1, 62, 28, 27, 36, 44, 6, 55, 20, 3, 10, 43, 25, 39, 41, 45, 15, 21, 8, 18, 2, 61, 56, 14]

/-- Round constants of iota. -/
def roundConsts : List Nat :=
  [0x0000000000000001, 0x0000000000008082, 0x800000000000808A, 0x8000000080008000, 0x000000000000808B, 0x0000000080000001]
    ++ [0x8000000080008081, 0x8000000000008009, 0x000000000000008A, 0x0000000000000088, 0x0000000080008009,
      0x000000008000000A]
    ++ [0x000000008000808B, 0x800000000000008B, 0x8000000000008089, 0x8000000000008003, 0x8000000000008002,
      0x8000000000000080]
    ++ [0x000000000000800A, 0x800000008000000A, 0x8000000080008081, 0x8000000000008080, 0x0000000080000001,
      0x8000000080008008]

/-- Column parities of the rows of five lanes. -/
def columnParity : List Nat → List Nat
  | a :: b :: c :: d :: e :: l => xorLanes [a, b, c, d, e] (columnParity l)
  | _ => [0, 0, 0, 0, 0]

/-- What theta adds to each column. -/
def thetaColumns : List Nat → List Nat
  | [a, b, c, d, e] =>
    [e ^^^ rotl64 b 1, a ^^^ rotl64 c 1, b ^^^ rotl64 d 1, c ^^^ rotl64 e 1, d ^^^ rotl64 a 1]
  | l => l

/-- Theta. -/
def keccakTheta (a : List Nat) : List Nat :=
  let d := thetaColumns (columnParity a)
  xorLanes a (d ++ d ++ d ++ d ++ d)

/-- Rho and pi: lane (x, y) takes the rotated lane (x + 3y, x). -/
def keccakRhoPi (a : List Nat) : List Nat :=
  let r := List.zipWith rotl64 a rhoOffsets
  [0, 6, 12, 18, 24, 3, 9, 10, 16, 22, 1, 7, 13, 19, 20, 4, 5, 11, 17, 23, 2, 8, 14, 15, 21].map fun j => r.getD j 0

/-- Complement of a lane. -/
def notLane (a : Nat) : Nat := a ^^^ (2 ^ 64 - 1)

/-- Chi, row by row. -/
def keccakChi : List Nat → List Nat
  | a :: b :: c :: d :: e :: l =>
    (a ^^^ (notLane b &&& c)) :: (b ^^^ (notLane c &&& d)) :: (c ^^^ (notLane d &&& e)) :: (d ^^^ (notLane e &&& a))
      :: (e ^^^ (notLane a &&& b)) :: keccakChi l
  | _ => []

/-- One round of Keccak-f[1600]. -/
def keccakRound (a : List Nat) (rc : Nat) : List Nat :=
  match keccakChi (keccakRhoPi (keccakTheta a)) with
  | x :: l => (x ^^^ rc) :: l
  | [] => []

/-- Keccak-f[1600]. -/
def keccakF (a : List Nat) : List Nat := roundConsts.foldl keccakRound a

/-- A block of `rate` bytes taken into the state. -/
def absorb (a : List Nat) (rate : Nat) (block : List Byte) : List Nat :=
  let n := leNat block
  keccakF (((List.range 25).zip a).map fun p =>
    if p.1 < rate / 8 then p.2 ^^^ (n >>> (64 * p.1)) % 2 ^ 64 else p.2)

/-- All whole blocks taken in, then the padded rest with the domain byte; `fuel` exceeds the blocks. -/
def absorbAll (rate dom : Nat) : Nat → List Nat → List Byte → List Nat
  | 0, a, _ => a
  | fuel + 1, a, bs =>
    if rate ≤ bs.length then absorbAll rate dom fuel (absorb a rate (bs.take rate)) (bs.drop rate)
    else
      let pad := bs ++ [BitVec.ofNat 8 dom] ++ List.replicate (rate - 1 - bs.length) 0
      absorb a rate (pad.take (rate - 1) ++ [(pad.getD (rate - 1) 0) ||| 0x80])

/-- The first `n` lanes of a sponge over a message, as one little-endian number. -/
def spongeNum (rate dom lanes : Nat) (msg : List Byte) : Nat :=
  ((absorbAll rate dom (msg.length / rate + 1) (List.replicate 25 0) msg).take lanes).foldr
    (fun l n => l + 2 ^ 64 * n) 0

/-- SHAKE256 with a 64-byte output, its bytes little-endian (R436, R438, R446). -/
def shake256 (msg : List Byte) : BitVec 512 := BitVec.ofNat 512 (spongeNum 136 0x1F 8 msg)

/-- SHA3-384 (R450), its bytes little-endian. -/
def sha3x384 (msg : List Byte) : BitVec 384 := BitVec.ofNat 384 (spongeNum 104 0x06 6 msg)

/-- A signed object as shipped (R438): its header, BODYDIGEST the SHAKE256 digest of the body, and the body. -/
def signedObject (ty keyid : Nat) (fwrev vers : Nat) (bind : Word) (body : List Byte) : List Byte :=
  leBytes 4 0x4C585342 ++ leBytes 1 ty ++ [1, 0, 0] ++ leBytes 4 0 ++ leBytes 2 fwrev ++ leBytes 4 vers
    ++ List.replicate 6 0 ++ wordBytes bind ++ leBytes 4 body.length ++ leBytes 1 keyid ++ List.replicate 27 0
    ++ leBytes 64 (shake256 body).toNat ++ slice (Config.factorySig ty) 0 3309 ++ List.replicate 659 0 ++ body

end Sys2Proof.Machine
end

