-- ==== Sys2Proof/Machine/RegMap.lean ====
section
/-! DEFINITION. The register maps (R93-R96, R118, R147, R173, R199-R202, R221, R222, R250, R277, R310-R312, R344,
R386, R387, R431): every field with its access code and reset value, and the fields by name. -/

namespace Sys2Proof.Machine

/-- Access codes (R10). -/
inductive Acc where
  | ro
  | rw
  | w1c
  | w1s
  | wo
  | rc
  deriving DecidableEq, Repr

/-- A row of a register map: offset, number of registers and their spacing, bits, access code, reset value. -/
structure RegRow where
  off : Nat
  cnt : Nat
  stride : Nat
  hi : Nat
  lo : Nat
  acc : Acc
  reset : Nat
  deriving DecidableEq, Repr

/-- Register map of the core block. -/
def rows_core : List RegRow :=
  [⟨0x0, 1, 0, 20, 16, .ro, 0⟩,
   ⟨0x0, 1, 0, 13, 8, .ro, 0⟩,
   ⟨0x0, 1, 0, 7, 4, .ro, 0⟩,
   ⟨0x0, 1, 0, 3, 0, .ro, 0⟩,
   ⟨0x18, 1, 0, 20, 4, .rw, 0⟩,
   ⟨0x28, 1, 0, 63, 0, .ro, 0⟩,
   ⟨0x30, 1, 0, 63, 0, .ro, 0⟩,
   ⟨0x38, 1, 0, 31, 0, .rw, 0⟩,
   ⟨0x40, 1, 0, 0, 0, .rw, 0⟩,
   ⟨0x48, 1, 0, 31, 0, .rw, 0⟩,
   ⟨0x50, 1, 0, 63, 0, .rw, 0⟩,
   ⟨0x58, 1, 0, 4, 0, .ro, 0⟩,
   ⟨0x58, 1, 0, 12, 8, .ro, 0⟩,
   ⟨0x58, 1, 0, 20, 16, .ro, 0⟩,
   ⟨0x58, 1, 0, 28, 24, .ro, 0⟩,
   ⟨0x200, 64, 8, 15, 0, .rw, 0⟩,
   ⟨0x400, 1, 0, 63, 0, .ro, 0⟩,
   ⟨0x408, 1, 0, 63, 0, .ro, 0⟩,
   ⟨0x410, 1, 0, 63, 0, .ro, 0⟩,
   ⟨0x418, 1, 0, 63, 0, .ro, 0⟩,
   ⟨0x420, 1, 0, 63, 0, .ro, 0⟩,
   ⟨0x428, 1, 0, 63, 0, .ro, 0⟩,
   ⟨0x8, 1, 0, 2, 2, .wo, 0⟩,
   ⟨0x8, 1, 0, 1, 1, .wo, 0⟩,
   ⟨0x8, 1, 0, 0, 0, .wo, 0⟩]
  ++ [⟨0x10, 1, 0, 13, 11, .ro, 0⟩,
   ⟨0x10, 1, 0, 10, 7, .ro, 0⟩,
   ⟨0x10, 1, 0, 2, 0, .ro, 0⟩,
   ⟨0x68, 1, 0, 5, 0, .ro, 0⟩,
   ⟨0x20, 1, 0, 8, 8, .w1c, 0⟩,
   ⟨0x20, 1, 0, 7, 5, .ro, 0⟩,
   ⟨0x20, 1, 0, 4, 0, .ro, 0⟩]

/-- Register map of the me block. -/
def rows_me : List RegRow :=
  [⟨0x0, 1, 0, 3, 3, .w1c, 0⟩,
   ⟨0x0, 1, 0, 2, 2, .w1c, 0⟩,
   ⟨0x0, 1, 0, 1, 1, .w1c, 0⟩,
   ⟨0x0, 1, 0, 0, 0, .w1c, 0⟩,
   ⟨0x8, 1, 0, 5, 0, .ro, 0⟩,
   ⟨0x10, 1, 0, 0, 0, .wo, 0⟩,
   ⟨0x18, 1, 0, 63, 0, .ro, 0⟩,
   ⟨0x20, 1, 0, 63, 0, .ro, 0⟩,
   ⟨0x28, 1, 0, 63, 0, .ro, 0⟩]

/-- Register map of the ve block. -/
def rows_ve : List RegRow :=
  [⟨0x0, 1, 0, 5, 5, .w1c, 0⟩,
   ⟨0x0, 1, 0, 4, 4, .w1c, 0⟩,
   ⟨0x0, 1, 0, 3, 3, .w1c, 0⟩,
   ⟨0x0, 1, 0, 2, 2, .w1c, 0⟩,
   ⟨0x0, 1, 0, 1, 1, .w1c, 0⟩,
   ⟨0x0, 1, 0, 0, 0, .w1c, 0⟩,
   ⟨0x8, 1, 0, 2, 2, .wo, 0⟩,
   ⟨0x8, 1, 0, 1, 1, .rw, 1⟩,
   ⟨0x8, 1, 0, 0, 0, .rw, 0⟩,
   ⟨0x10, 1, 0, 63, 0, .ro, 0⟩,
   ⟨0x18, 1, 0, 63, 0, .ro, 0⟩,
   ⟨0x20, 1, 0, 63, 0, .ro, 0⟩]

/-- Register map of the sfe block. -/
def rows_sfe : List RegRow :=
  [⟨0x0, 1, 0, 6, 6, .w1c, 0⟩,
   ⟨0x0, 1, 0, 5, 5, .w1c, 0⟩,
   ⟨0x0, 1, 0, 4, 4, .w1c, 0⟩,
   ⟨0x0, 1, 0, 3, 3, .w1c, 0⟩,
   ⟨0x0, 1, 0, 2, 2, .w1c, 0⟩,
   ⟨0x0, 1, 0, 1, 1, .w1c, 0⟩,
   ⟨0x0, 1, 0, 0, 0, .w1c, 0⟩,
   ⟨0x8, 1, 0, 3, 3, .wo, 0⟩,
   ⟨0x8, 1, 0, 2, 2, .rw, 1⟩,
   ⟨0x8, 1, 0, 1, 1, .rw, 1⟩,
   ⟨0x8, 1, 0, 0, 0, .rw, 1⟩,
   ⟨0x10, 1, 0, 15, 8, .ro, 0⟩,
   ⟨0x18, 1, 0, 7, 7, .ro, 0⟩,
   ⟨0x18, 1, 0, 15, 15, .ro, 0⟩,
   ⟨0x18, 1, 0, 23, 23, .ro, 0⟩,
   ⟨0x18, 1, 0, 31, 31, .ro, 0⟩,
   ⟨0x18, 1, 0, 6, 6, .ro, 0⟩,
   ⟨0x18, 1, 0, 14, 14, .ro, 0⟩,
   ⟨0x18, 1, 0, 22, 22, .ro, 0⟩,
   ⟨0x18, 1, 0, 30, 30, .ro, 0⟩,
   ⟨0x18, 1, 0, 3, 0, .ro, 0⟩,
   ⟨0x18, 1, 0, 11, 8, .ro, 0⟩,
   ⟨0x18, 1, 0, 19, 16, .ro, 0⟩,
   ⟨0x18, 1, 0, 27, 24, .ro, 0⟩,
   ⟨0x20, 1, 0, 63, 0, .ro, 0⟩]
  ++ [⟨0x28, 1, 0, 63, 0, .ro, 0⟩,
   ⟨0x30, 1, 0, 63, 0, .ro, 0⟩]

/-- Register map of the die block. -/
def rows_die : List RegRow :=
  [⟨0x0, 1, 0, 23, 16, .ro, 0⟩,
   ⟨0x0, 1, 0, 13, 11, .ro, 0⟩,
   ⟨0x0, 1, 0, 10, 8, .ro, 0⟩,
   ⟨0x0, 1, 0, 5, 0, .ro, 0⟩,
   ⟨0x8, 1, 0, 31, 16, .ro, 0⟩,
   ⟨0x8, 1, 0, 15, 12, .ro, 0⟩,
   ⟨0x8, 1, 0, 11, 11, .ro, 0⟩,
   ⟨0x8, 1, 0, 10, 10, .ro, 0⟩,
   ⟨0x8, 1, 0, 9, 9, .ro, 0⟩,
   ⟨0x8, 1, 0, 8, 8, .ro, 0⟩,
   ⟨0x8, 1, 0, 7, 0, .ro, 1⟩,
   ⟨0x10, 1, 0, 9, 9, .ro, 1⟩,
   ⟨0x10, 1, 0, 8, 0, .ro, 0⟩,
   ⟨0x18, 1, 0, 31, 16, .ro, 0⟩,
   ⟨0x18, 1, 0, 8, 8, .ro, 0⟩,
   ⟨0x18, 1, 0, 7, 0, .ro, 0⟩,
   ⟨0x20, 1, 0, 63, 0, .ro, 0⟩,
   ⟨0x28, 1, 0, 35, 0, .ro, 0⟩,
   ⟨0x30, 8, 8, 63, 0, .ro, 0⟩,
   ⟨0x70, 1, 0, 2, 2, .w1c, 0⟩,
   ⟨0x70, 1, 0, 1, 1, .w1c, 0⟩,
   ⟨0x70, 1, 0, 0, 0, .w1c, 0⟩,
   ⟨0x78, 1, 0, 63, 0, .ro, 0⟩,
   ⟨0x80, 1, 0, 15, 8, .ro, 0⟩,
   ⟨0x80, 1, 0, 7, 0, .ro, 0⟩]
  ++ [⟨0x88, 1, 0, 15, 0, .rw, 1024⟩,
   ⟨0x90, 1, 0, 63, 0, .ro, 0⟩,
   ⟨0x98, 1, 0, 63, 0, .ro, 0⟩,
   ⟨0xA0, 1, 0, 23, 16, .rw, 24⟩,
   ⟨0xA0, 1, 0, 0, 0, .rw, 1⟩,
   ⟨0xA8, 1, 0, 38, 0, .ro, 0⟩]

/-- Register map of the cl block. -/
def rows_cl : List RegRow :=
  [⟨0x0, 1, 0, 3, 0, .ro, 0⟩,
   ⟨0x8, 8, 8, 15, 0, .rw, 0⟩,
   ⟨0x5000, 1, 0, 63, 0, .ro, 0⟩,
   ⟨0x5008, 1, 0, 63, 0, .ro, 0⟩,
   ⟨0x100, 1, 0, 0, 0, .wo, 0⟩,
   ⟨0x108, 1, 0, 23, 0, .rw, 0⟩,
   ⟨0x110, 1, 0, 23, 0, .rw, 0⟩,
   ⟨0x118, 1, 0, 24, 24, .w1c, 0⟩,
   ⟨0x118, 1, 0, 23, 0, .ro, 0⟩,
   ⟨0x120, 1, 0, 23, 0, .ro, 0⟩,
   ⟨0x128, 1, 0, 1, 0, .wo, 0⟩,
   ⟨0x130, 1, 0, 63, 0, .ro, 0⟩,
   ⟨0x138, 1, 0, 63, 0, .ro, 0⟩,
   ⟨0x140, 1, 0, 63, 0, .ro, 0⟩,
   ⟨0x148, 1, 0, 63, 0, .ro, 0⟩,
   ⟨0x150, 1, 0, 63, 0, .ro, 0⟩,
   ⟨0x158, 1, 0, 63, 0, .ro, 0⟩,
   ⟨0x160, 1, 0, 63, 0, .ro, 0⟩,
   ⟨0x168, 1, 0, 63, 0, .ro, 0⟩,
   ⟨0x170, 1, 0, 63, 0, .ro, 0⟩,
   ⟨0x178, 1, 0, 63, 0, .ro, 0⟩,
   ⟨0x180, 1, 0, 63, 0, .ro, 0⟩,
   ⟨0x188, 1, 0, 63, 0, .ro, 0⟩]

/-- Register map of the hbm block. -/
def rows_hbm : List RegRow :=
  [⟨0x0, 1, 0, 3, 3, .w1c, 0⟩,
   ⟨0x0, 1, 0, 2, 2, .ro, 0⟩,
   ⟨0x0, 1, 0, 1, 1, .ro, 0⟩,
   ⟨0x0, 1, 0, 0, 0, .ro, 0⟩,
   ⟨0x8, 1, 0, 8, 8, .wo, 0⟩,
   ⟨0x8, 1, 0, 4, 0, .rw, 0⟩,
   ⟨0x10, 1, 0, 23, 0, .ro, 0⟩,
   ⟨0x18, 1, 0, 63, 0, .ro, 0⟩,
   ⟨0x20, 1, 0, 63, 0, .ro, 0⟩,
   ⟨0x28, 1, 0, 63, 0, .ro, 0⟩,
   ⟨0x30, 1, 0, 63, 0, .ro, 0⟩,
   ⟨0x38, 1, 0, 63, 0, .ro, 0⟩]

/-- Register map of the mesh block. -/
def rows_mesh : List RegRow :=
  [⟨0x0, 1, 0, 11, 8, .ro, 0⟩,
   ⟨0x0, 1, 0, 7, 4, .ro, 0⟩,
   ⟨0x0, 1, 0, 3, 0, .w1c, 0⟩,
   ⟨0x8, 1, 0, 63, 0, .ro, 0⟩,
   ⟨0x10, 1, 0, 63, 0, .ro, 0⟩]

/-- Register map of the dma block. -/
def rows_dma : List RegRow :=
  [⟨0x0, 1, 0, 31, 0, .ro, 0⟩,
   ⟨0x8, 1, 0, 1, 1, .rw, 0⟩,
   ⟨0x8, 1, 0, 0, 0, .wo, 0⟩,
   ⟨0x10, 1, 0, 23, 0, .rw, 10000⟩,
   ⟨0x18, 1, 0, 7, 0, .rw, 64⟩,
   ⟨0x20, 1, 0, 63, 0, .ro, 0⟩]

/-- Register map of the ch block. -/
def rows_ch : List RegRow :=
  [⟨0x0, 1, 0, 3, 3, .wo, 0⟩,
   ⟨0x0, 1, 0, 2, 2, .wo, 0⟩,
   ⟨0x0, 1, 0, 1, 1, .rw, 0⟩,
   ⟨0x0, 1, 0, 0, 0, .wo, 0⟩,
   ⟨0x8, 1, 0, 23, 16, .ro, 0⟩,
   ⟨0x8, 1, 0, 10, 8, .ro, 0⟩,
   ⟨0x8, 1, 0, 4, 4, .w1c, 0⟩,
   ⟨0x8, 1, 0, 3, 3, .w1c, 0⟩,
   ⟨0x8, 1, 0, 2, 0, .ro, 0⟩,
   ⟨0x10, 1, 0, 63, 0, .wo, 0⟩,
   ⟨0x18, 1, 0, 63, 32, .ro, 0⟩,
   ⟨0x18, 1, 0, 31, 0, .ro, 0⟩,
   ⟨0x20, 1, 0, 63, 0, .ro, 0⟩,
   ⟨0x28, 8, 8, 63, 0, .ro, 0⟩,
   ⟨0x68, 1, 0, 63, 0, .ro, 0⟩,
   ⟨0x70, 1, 0, 63, 0, .ro, 0⟩,
   ⟨0x78, 1, 0, 63, 0, .ro, 0⟩,
   ⟨0x80, 1, 0, 63, 0, .ro, 0⟩,
   ⟨0x88, 1, 0, 63, 0, .ro, 0⟩,
   ⟨0x90, 1, 0, 63, 0, .ro, 0⟩,
   ⟨0x98, 1, 0, 63, 0, .ro, 0⟩]

/-- Register map of the plu block. -/
def rows_plu : List RegRow :=
  [⟨0x0, 1, 0, 13, 8, .ro, 0⟩,
   ⟨0x0, 1, 0, 1, 1, .w1c, 0⟩,
   ⟨0x0, 1, 0, 0, 0, .ro, 0⟩,
   ⟨0x8, 1, 0, 0, 0, .wo, 0⟩,
   ⟨0x10, 1, 0, 63, 0, .ro, 0⟩,
   ⟨0x18, 1, 0, 63, 0, .ro, 0⟩,
   ⟨0x20, 1, 0, 63, 0, .ro, 0⟩,
   ⟨0x28, 1, 0, 63, 0, .ro, 0⟩,
   ⟨0x30, 1, 0, 63, 0, .ro, 0⟩]

/-- Register map of the gc block. -/
def rows_gc : List RegRow :=
  [⟨0x0, 1, 0, 8, 8, .w1c, 0⟩,
   ⟨0x0, 1, 0, 7, 7, .w1c, 0⟩,
   ⟨0x0, 1, 0, 6, 6, .w1c, 0⟩,
   ⟨0x0, 1, 0, 5, 5, .ro, 0⟩,
   ⟨0x0, 1, 0, 3, 3, .w1c, 0⟩,
   ⟨0x0, 1, 0, 2, 2, .w1c, 0⟩,
   ⟨0x0, 1, 0, 1, 1, .w1c, 0⟩,
   ⟨0x0, 1, 0, 0, 0, .w1c, 0⟩,
   ⟨0x8, 1, 0, 0, 0, .wo, 0⟩,
   ⟨0x10, 1, 0, 63, 0, .ro, 0⟩,
   ⟨0x18, 1, 0, 63, 0, .ro, 0⟩,
   ⟨0x20, 1, 0, 63, 0, .ro, 0⟩]

/-- Register map of the red block. -/
def rows_red : List RegRow :=
  [⟨0x0, 1, 0, 7, 7, .w1c, 0⟩,
   ⟨0x0, 1, 0, 6, 6, .w1c, 0⟩,
   ⟨0x0, 1, 0, 5, 5, .ro, 0⟩,
   ⟨0x0, 1, 0, 3, 3, .w1c, 0⟩,
   ⟨0x0, 1, 0, 2, 2, .w1c, 0⟩,
   ⟨0x0, 1, 0, 1, 1, .w1c, 0⟩,
   ⟨0x0, 1, 0, 0, 0, .w1c, 0⟩,
   ⟨0x8, 1, 0, 0, 0, .wo, 0⟩,
   ⟨0x10, 1, 0, 63, 0, .rw, 0⟩,
   ⟨0x18, 1, 0, 15, 0, .rw, 1⟩,
   ⟨0x20, 1, 0, 31, 0, .rw, 10000000⟩,
   ⟨0x28, 1, 0, 31, 0, .ro, 0⟩,
   ⟨0x30, 1, 0, 63, 0, .ro, 0⟩,
   ⟨0x38, 1, 0, 63, 0, .ro, 0⟩]

/-- Register map of the sty block. -/
def rows_sty : List RegRow :=
  [⟨0x0, 1, 0, 7, 7, .w1c, 0⟩,
   ⟨0x0, 1, 0, 6, 6, .ro, 0⟩,
   ⟨0x0, 1, 0, 5, 5, .ro, 0⟩,
   ⟨0x0, 1, 0, 3, 3, .w1c, 0⟩,
   ⟨0x0, 1, 0, 2, 2, .w1c, 0⟩,
   ⟨0x0, 1, 0, 1, 1, .w1c, 0⟩,
   ⟨0x0, 1, 0, 0, 0, .w1c, 0⟩,
   ⟨0x8, 1, 0, 0, 0, .wo, 0⟩,
   ⟨0x10, 1, 0, 15, 0, .rw, 32640⟩,
   ⟨0x18, 1, 0, 63, 32, .ro, 0⟩,
   ⟨0x18, 1, 0, 15, 0, .ro, 0⟩,
   ⟨0x20, 1, 0, 31, 16, .ro, 0⟩,
   ⟨0x20, 1, 0, 15, 0, .ro, 0⟩,
   ⟨0x28, 1, 0, 63, 0, .rw, 0⟩,
   ⟨0x30, 1, 0, 63, 0, .ro, 0⟩,
   ⟨0x38, 1, 0, 63, 0, .ro, 0⟩]

/-- Register map of the link block. -/
def rows_link : List RegRow :=
  [⟨0x0, 1, 0, 31, 24, .ro, 0⟩,
   ⟨0x0, 1, 0, 17, 17, .ro, 0⟩,
   ⟨0x0, 1, 0, 16, 16, .ro, 0⟩,
   ⟨0x0, 1, 0, 12, 12, .ro, 0⟩,
   ⟨0x0, 1, 0, 11, 11, .ro, 0⟩,
   ⟨0x0, 1, 0, 10, 10, .ro, 0⟩,
   ⟨0x0, 1, 0, 9, 9, .ro, 0⟩,
   ⟨0x0, 1, 0, 8, 8, .ro, 0⟩,
   ⟨0x0, 1, 0, 2, 0, .ro, 0⟩,
   ⟨0x8, 1, 0, 2, 2, .wo, 0⟩,
   ⟨0x8, 1, 0, 1, 1, .wo, 0⟩,
   ⟨0x8, 1, 0, 0, 0, .rw, 1⟩,
   ⟨0x10, 1, 0, 41, 32, .ro, 0⟩,
   ⟨0x10, 1, 0, 31, 24, .ro, 0⟩,
   ⟨0x10, 1, 0, 23, 23, .ro, 0⟩,
   ⟨0x10, 1, 0, 22, 14, .ro, 0⟩,
   ⟨0x10, 1, 0, 13, 8, .ro, 0⟩,
   ⟨0x10, 1, 0, 5, 3, .ro, 0⟩,
   ⟨0x10, 1, 0, 2, 0, .ro, 0⟩,
   ⟨0x18, 1, 0, 63, 0, .ro, 0⟩,
   ⟨0x20, 1, 0, 14, 8, .ro, 0⟩,
   ⟨0x20, 1, 0, 6, 0, .ro, 0⟩,
   ⟨0x28, 1, 0, 31, 0, .ro, 0⟩,
   ⟨0x30, 1, 0, 31, 0, .rw, 16384⟩,
   ⟨0x38, 1, 0, 31, 16, .rw, 100⟩]
  ++ [⟨0x38, 1, 0, 15, 0, .rw, 1000⟩,
   ⟨0x40, 1, 0, 63, 0, .ro, 0⟩,
   ⟨0x48, 1, 0, 63, 0, .ro, 0⟩,
   ⟨0x50, 1, 0, 63, 0, .ro, 0⟩,
   ⟨0x58, 1, 0, 63, 0, .ro, 0⟩,
   ⟨0x60, 1, 0, 63, 0, .ro, 0⟩,
   ⟨0x68, 1, 0, 63, 0, .ro, 0⟩,
   ⟨0x70, 1, 0, 63, 0, .ro, 0⟩,
   ⟨0x78, 1, 0, 63, 0, .ro, 0⟩,
   ⟨0x80, 1, 0, 63, 0, .ro, 0⟩,
   ⟨0x100, 7, 8, 47, 32, .ro, 0⟩,
   ⟨0x100, 7, 8, 31, 0, .ro, 0⟩,
   ⟨0x1000, 64, 8, 63, 0, .ro, 0⟩]

/-- Register map of the bar0 block. -/
def rows_bar0 : List RegRow :=
  [⟨0x0, 1, 0, 31, 16, .ro, 0⟩,
   ⟨0x0, 1, 0, 15, 8, .ro, 0⟩,
   ⟨0x0, 1, 0, 7, 0, .ro, 0⟩,
   ⟨0x8, 1, 0, 1, 1, .ro, 0⟩,
   ⟨0x8, 1, 0, 0, 0, .ro, 0⟩]

/-- Register map of the queue block. -/
def rows_queue : List RegRow :=
  [⟨0x0, 1, 0, 63, 12, .rw, 0⟩,
   ⟨0x8, 1, 0, 63, 12, .rw, 0⟩,
   ⟨0x10, 1, 0, 31, 31, .rw, 0⟩,
   ⟨0x10, 1, 0, 21, 16, .rw, 0⟩,
   ⟨0x10, 1, 0, 11, 8, .rw, 7⟩,
   ⟨0x10, 1, 0, 3, 0, .rw, 7⟩,
   ⟨0x18, 1, 0, 11, 0, .rw, 0⟩,
   ⟨0x20, 1, 0, 11, 0, .ro, 0⟩,
   ⟨0x28, 1, 0, 11, 0, .rw, 0⟩,
   ⟨0x30, 1, 0, 15, 8, .ro, 0⟩,
   ⟨0x30, 1, 0, 2, 2, .ro, 0⟩,
   ⟨0x30, 1, 0, 1, 1, .ro, 0⟩,
   ⟨0x30, 1, 0, 0, 0, .ro, 0⟩,
   ⟨0x38, 1, 0, 31, 16, .rw, 0⟩,
   ⟨0x38, 1, 0, 15, 0, .rw, 1⟩]

/-- Register map of the pwr block. -/
def rows_pwr : List RegRow :=
  [⟨0x0, 1, 0, 2, 0, .rw, 0⟩,
   ⟨0x8, 1, 0, 5, 5, .ro, 1⟩,
   ⟨0x8, 1, 0, 4, 4, .rw, 0⟩,
   ⟨0x8, 1, 0, 3, 3, .rw, 1⟩,
   ⟨0x8, 1, 0, 2, 2, .rw, 1⟩,
   ⟨0x8, 1, 0, 1, 1, .rw, 1⟩,
   ⟨0x8, 1, 0, 0, 0, .ro, 1⟩,
   ⟨0x10, 1, 0, 31, 0, .rw, 0⟩,
   ⟨0x18, 1, 0, 23, 20, .ro, 0⟩,
   ⟨0x18, 1, 0, 19, 16, .ro, 0⟩,
   ⟨0x18, 1, 0, 12, 12, .w1c, 0⟩,
   ⟨0x18, 1, 0, 11, 11, .ro, 0⟩,
   ⟨0x18, 1, 0, 10, 10, .ro, 0⟩,
   ⟨0x18, 1, 0, 9, 9, .ro, 1⟩,
   ⟨0x18, 1, 0, 8, 8, .ro, 0⟩,
   ⟨0x18, 1, 0, 7, 4, .ro, 0⟩,
   ⟨0x18, 1, 0, 2, 0, .ro, 0⟩,
   ⟨0x20, 1, 0, 0, 0, .rw, 1⟩,
   ⟨0x28, 1, 0, 4, 4, .w1c, 0⟩,
   ⟨0x28, 1, 0, 3, 3, .w1c, 0⟩,
   ⟨0x28, 1, 0, 2, 2, .w1c, 0⟩,
   ⟨0x28, 1, 0, 1, 1, .w1c, 0⟩,
   ⟨0x28, 1, 0, 0, 0, .w1c, 0⟩,
   ⟨0x30, 1, 0, 2, 0, .rw, 0⟩,
   ⟨0x38, 1, 0, 11, 11, .ro, 0⟩]
  ++ [⟨0x38, 1, 0, 10, 10, .ro, 0⟩,
   ⟨0x38, 1, 0, 9, 9, .ro, 0⟩,
   ⟨0x38, 1, 0, 8, 6, .ro, 0⟩,
   ⟨0x38, 1, 0, 2, 0, .ro, 0⟩,
   ⟨0x40, 1, 0, 31, 16, .ro, 0⟩,
   ⟨0x40, 1, 0, 15, 0, .ro, 0⟩,
   ⟨0x48, 1, 0, 31, 0, .ro, 0⟩,
   ⟨0x50, 1, 0, 63, 0, .ro, 0⟩,
   ⟨0x58, 1, 0, 63, 0, .ro, 0⟩,
   ⟨0x60, 1, 0, 63, 0, .ro, 0⟩,
   ⟨0x68, 1, 0, 63, 0, .ro, 0⟩]

/-- R93. -/
def CORE_ID_PHYS : Fld := ⟨0x0, 16, 5⟩
/-- R93. -/
def CORE_ID_DIE : Fld := ⟨0x0, 8, 6⟩
/-- R93. -/
def CORE_ID_CLUSTER : Fld := ⟨0x0, 4, 4⟩
/-- R93. -/
def CORE_ID_CORE : Fld := ⟨0x0, 0, 4⟩
/-- R93. -/
def CORE_PC_PC : Fld := ⟨0x18, 4, 17⟩
/-- R93. -/
def CORE_FPC : Fld := ⟨0x28, 0, 64⟩
/-- R93. -/
def CORE_FADDR : Fld := ⟨0x30, 0, 64⟩
/-- R93. -/
def CORE_WDOG_LIMIT : Fld := ⟨0x38, 0, 32⟩
/-- R93. -/
def CORE_PWR_MODE : Fld := ⟨0x40, 0, 1⟩
/-- R93. -/
def CORE_WTIME_WTIME : Fld := ⟨0x48, 0, 32⟩
/-- R93. -/
def CORE_STEP_STEP : Fld := ⟨0x50, 0, 64⟩
/-- R93. -/
def CONV_STATUS_OCC0 : Fld := ⟨0x58, 0, 5⟩
/-- R93. -/
def CONV_STATUS_OCC1 : Fld := ⟨0x58, 8, 5⟩
/-- R93. -/
def CONV_STATUS_OCC2 : Fld := ⟨0x58, 16, 5⟩
/-- R93. -/
def CONV_STATUS_OCC3 : Fld := ⟨0x58, 24, 5⟩
/-- R93. -/
def SEM_VALUE : Fld := ⟨0x200, 0, 16⟩
/-- R93. -/
def CNT_ISSUE : Fld := ⟨0x400, 0, 64⟩
/-- R93. -/
def CNT_SEMWAIT : Fld := ⟨0x408, 0, 64⟩
/-- R93. -/
def CNT_QFULL : Fld := ⟨0x410, 0, 64⟩
/-- R93. -/
def CNT_CONV : Fld := ⟨0x418, 0, 64⟩
/-- R93. -/
def CNT_MEFULL : Fld := ⟨0x420, 0, 64⟩
/-- R93. -/
def CNT_HOLD : Fld := ⟨0x428, 0, 64⟩
/-- R94. -/
def CORE_CTRL_CLRCNT : Fld := ⟨0x8, 2, 1⟩
/-- R94. -/
def CORE_CTRL_RESET : Fld := ⟨0x8, 1, 1⟩
/-- R94. -/
def CORE_CTRL_RUN : Fld := ⟨0x8, 0, 1⟩
/-- R95. -/
def CORE_STATUS_LOOPD : Fld := ⟨0x10, 11, 3⟩
/-- R95. -/
def CORE_STATUS_CALLD : Fld := ⟨0x10, 7, 4⟩
/-- R95. -/
def CORE_STATUS_STATE : Fld := ⟨0x10, 0, 3⟩
/-- R95. -/
def CORE_BUSY_BUSY : Fld := ⟨0x68, 0, 6⟩
/-- R96. -/
def CORE_FAULT_MULTI : Fld := ⟨0x20, 8, 1⟩
/-- R96. -/
def CORE_FAULT_SRC : Fld := ⟨0x20, 5, 3⟩
/-- R96. -/
def CORE_FAULT_CODE : Fld := ⟨0x20, 0, 5⟩
/-- R118. -/
def ME_STATUS_NV : Fld := ⟨0x0, 3, 1⟩
/-- R118. -/
def ME_STATUS_OF : Fld := ⟨0x0, 2, 1⟩
/-- R118. -/
def ME_STATUS_UF : Fld := ⟨0x0, 1, 1⟩
/-- R118. -/
def ME_STATUS_BS : Fld := ⟨0x0, 0, 1⟩
/-- R118. -/
def ME_REPAIR_MAPPED : Fld := ⟨0x8, 0, 6⟩
/-- R118. -/
def ME_CTRL_CLRCNT : Fld := ⟨0x10, 0, 1⟩
/-- R118. -/
def ME_CNT_ARRAY : Fld := ⟨0x18, 0, 64⟩
/-- R118. -/
def ME_CNT_OPWAIT : Fld := ⟨0x20, 0, 64⟩
/-- R118. -/
def ME_CNT_HAZARD : Fld := ⟨0x28, 0, 64⟩
/-- R147. -/
def VE_STATUS_BAD_LOP : Fld := ⟨0x0, 5, 1⟩
/-- R147. -/
def VE_STATUS_OOR_LANE : Fld := ⟨0x0, 4, 1⟩
/-- R147. -/
def VE_STATUS_NV : Fld := ⟨0x0, 3, 1⟩
/-- R147. -/
def VE_STATUS_OF : Fld := ⟨0x0, 2, 1⟩
/-- R147. -/
def VE_STATUS_UF : Fld := ⟨0x0, 1, 1⟩
/-- R147. -/
def VE_STATUS_BS : Fld := ⟨0x0, 0, 1⟩
/-- R147. -/
def VE_CTRL_CLRCNT : Fld := ⟨0x8, 2, 1⟩
/-- R147. -/
def VE_CTRL_LOP_TRAP : Fld := ⟨0x8, 1, 1⟩
/-- R147. -/
def VE_CTRL_OOR_TRAP : Fld := ⟨0x8, 0, 1⟩
/-- R147. -/
def VE_CNT_LANE : Fld := ⟨0x10, 0, 64⟩
/-- R147. -/
def VE_CNT_MEMWAIT : Fld := ⟨0x18, 0, 64⟩
/-- R147. -/
def VE_CNT_OOR : Fld := ⟨0x20, 0, 64⟩
/-- R173. -/
def SFE_STATUS_GEN_MISMATCH : Fld := ⟨0x0, 6, 1⟩
/-- R173. -/
def SFE_STATUS_SLOT_EMPTY : Fld := ⟨0x0, 5, 1⟩
/-- R173. -/
def SFE_STATUS_TBL_BAD : Fld := ⟨0x0, 4, 1⟩
/-- R173. -/
def SFE_STATUS_NV : Fld := ⟨0x0, 3, 1⟩
/-- R173. -/
def SFE_STATUS_OF : Fld := ⟨0x0, 2, 1⟩
/-- R173. -/
def SFE_STATUS_UF : Fld := ⟨0x0, 1, 1⟩
/-- R173. -/
def SFE_STATUS_BS : Fld := ⟨0x0, 0, 1⟩
/-- R173. -/
def SFE_CTRL_CLRCNT : Fld := ⟨0x8, 3, 1⟩
/-- R173. -/
def SFE_CTRL_GEN_TRAP : Fld := ⟨0x8, 2, 1⟩
/-- R173. -/
def SFE_CTRL_EMPTY_TRAP : Fld := ⟨0x8, 1, 1⟩
/-- R173. -/
def SFE_CTRL_TBL_TRAP : Fld := ⟨0x8, 0, 1⟩
/-- R173. -/
def SFE_ID_ALGREV : Fld := ⟨0x10, 8, 8⟩
/-- R173. -/
def SFE_TABLE_VALID0 : Fld := ⟨0x18, 7, 1⟩
/-- R173. -/
def SFE_TABLE_VALID1 : Fld := ⟨0x18, 15, 1⟩
/-- R173. -/
def SFE_TABLE_VALID2 : Fld := ⟨0x18, 23, 1⟩
/-- R173. -/
def SFE_TABLE_VALID3 : Fld := ⟨0x18, 31, 1⟩
/-- R173. -/
def SFE_TABLE_PENDING0 : Fld := ⟨0x18, 6, 1⟩
/-- R173. -/
def SFE_TABLE_PENDING1 : Fld := ⟨0x18, 14, 1⟩
/-- R173. -/
def SFE_TABLE_PENDING2 : Fld := ⟨0x18, 22, 1⟩
/-- R173. -/
def SFE_TABLE_PENDING3 : Fld := ⟨0x18, 30, 1⟩
/-- R173. -/
def SFE_TABLE_GEN0 : Fld := ⟨0x18, 0, 4⟩
/-- R173. -/
def SFE_TABLE_GEN1 : Fld := ⟨0x18, 8, 4⟩
/-- R173. -/
def SFE_TABLE_GEN2 : Fld := ⟨0x18, 16, 4⟩
/-- R173. -/
def SFE_TABLE_GEN3 : Fld := ⟨0x18, 24, 4⟩
/-- R173. -/
def SFE_CNT_FUNC : Fld := ⟨0x20, 0, 64⟩
/-- R173. -/
def SFE_CNT_SWAPWAIT : Fld := ⟨0x28, 0, 64⟩
/-- R173. -/
def SFE_CNT_MEMWAIT : Fld := ⟨0x30, 0, 64⟩
/-- R199. -/
def DIE_ID_PART : Fld := ⟨0x0, 16, 8⟩
/-- R199. -/
def DIE_ID_Y : Fld := ⟨0x0, 11, 3⟩
/-- R199. -/
def DIE_ID_X : Fld := ⟨0x0, 8, 3⟩
/-- R199. -/
def DIE_ID_DIE : Fld := ⟨0x0, 0, 6⟩
/-- R199. -/
def DIE_CAP_CLDEG : Fld := ⟨0x8, 16, 16⟩
/-- R199. -/
def DIE_CAP_HBMOK : Fld := ⟨0x8, 12, 4⟩
/-- R199. -/
def DIE_CAP_LINK : Fld := ⟨0x8, 11, 1⟩
/-- R199. -/
def DIE_CAP_PLU_LOCAL : Fld := ⟨0x8, 10, 1⟩
/-- R199. -/
def DIE_CAP_PLU_ROW : Fld := ⟨0x8, 9, 1⟩
/-- R199. -/
def DIE_CAP_GCMP : Fld := ⟨0x8, 8, 1⟩
/-- R199. -/
def DIE_CAP_CAPREV : Fld := ⟨0x8, 0, 8⟩
/-- R199. -/
def DIE_LMOD_NOLMOD : Fld := ⟨0x10, 9, 1⟩
/-- R199. -/
def DIE_LMOD_LMOD : Fld := ⟨0x10, 0, 9⟩
/-- R199. -/
def DIE_STALL_RANK : Fld := ⟨0x18, 16, 16⟩
/-- R199. -/
def DIE_STALL_MEMBER : Fld := ⟨0x18, 8, 1⟩
/-- R199. -/
def DIE_STALL_STALL : Fld := ⟨0x18, 0, 8⟩
/-- R199. -/
def DIE_JOBKEY : Fld := ⟨0x20, 0, 64⟩
/-- R199. -/
def FENCE_DIES_DIES : Fld := ⟨0x28, 0, 36⟩
/-- R199. -/
def FENCE_MOD_MODS : Fld := ⟨0x30, 0, 64⟩
/-- R199. -/
def MEM_ERR_OVF : Fld := ⟨0x70, 2, 1⟩
/-- R199. -/
def MEM_ERR_UE : Fld := ⟨0x70, 1, 1⟩
/-- R199. -/
def MEM_ERR_CE : Fld := ⟨0x70, 0, 1⟩
/-- R199. -/
def MEM_ERRADDR : Fld := ⟨0x78, 0, 64⟩
/-- R199. -/
def MEM_ERRINFO_CLASS : Fld := ⟨0x80, 8, 8⟩
/-- R199. -/
def MEM_ERRINFO_INSTANCE : Fld := ⟨0x80, 0, 8⟩
/-- R199. -/
def MEM_CETHRESH_THRESH : Fld := ⟨0x88, 0, 16⟩
/-- R199. -/
def CNT_CE : Fld := ⟨0x90, 0, 64⟩
/-- R199. -/
def CNT_UE : Fld := ⟨0x98, 0, 64⟩
/-- R199. -/
def SCRUB_CTRL_HOURS : Fld := ⟨0xA0, 16, 8⟩
/-- R199. -/
def SCRUB_CTRL_EN : Fld := ⟨0xA0, 0, 1⟩
/-- R199. -/
def SCRUB_POS_ADDR : Fld := ⟨0xA8, 0, 39⟩
/-- R200. -/
def CL_ID_CLUSTER : Fld := ⟨0x0, 0, 4⟩
/-- R200. -/
def CL_BARMASK_MASK : Fld := ⟨0x8, 0, 16⟩
/-- R200. -/
def CL_RT_CNT_FENCE : Fld := ⟨0x5000, 0, 64⟩
/-- R200. -/
def CL_RT_CNT_OUT : Fld := ⟨0x5008, 0, 64⟩
/-- R201. -/
def HBM_STATUS_POISON : Fld := ⟨0x0, 3, 1⟩
/-- R201. -/
def HBM_STATUS_SPARE_BUSY : Fld := ⟨0x0, 2, 1⟩
/-- R201. -/
def HBM_STATUS_SPARE_USED : Fld := ⟨0x0, 1, 1⟩
/-- R201. -/
def HBM_STATUS_UP : Fld := ⟨0x0, 0, 1⟩
/-- R201. -/
def HBM_SPARE_START : Fld := ⟨0x8, 8, 1⟩
/-- R201. -/
def HBM_SPARE_CHAN : Fld := ⟨0x8, 0, 5⟩
/-- R201. -/
def HBM_SPAREPOS_GRANULES : Fld := ⟨0x10, 0, 24⟩
/-- R201. -/
def HBM_CNT_CE : Fld := ⟨0x18, 0, 64⟩
/-- R201. -/
def HBM_CNT_UE : Fld := ⟨0x20, 0, 64⟩
/-- R201. -/
def HBM_CNT_ROWS : Fld := ⟨0x28, 0, 64⟩
/-- R201. -/
def HBM_CNT_RD : Fld := ⟨0x30, 0, 64⟩
/-- R201. -/
def HBM_CNT_WR : Fld := ⟨0x38, 0, 64⟩
/-- R202. -/
def MESH_STATUS_ABSENT : Fld := ⟨0x0, 8, 4⟩
/-- R202. -/
def MESH_STATUS_DOWN : Fld := ⟨0x0, 4, 4⟩
/-- R202. -/
def MESH_STATUS_SLIP : Fld := ⟨0x0, 0, 4⟩
/-- R202. -/
def MESH_CNT_RETRAIN : Fld := ⟨0x8, 0, 64⟩
/-- R202. -/
def MESH_CNT_FLITS : Fld := ⟨0x10, 0, 64⟩
/-- R221. -/
def DMA_STATUS_ACTIVE : Fld := ⟨0x0, 0, 32⟩
/-- R221. -/
def DMA_CTRL_PAUSEALL : Fld := ⟨0x8, 1, 1⟩
/-- R221. -/
def DMA_CTRL_CLRCNT : Fld := ⟨0x8, 0, 1⟩
/-- R221. -/
def DMA_TIMEOUT_US : Fld := ⟨0x10, 0, 24⟩
/-- R221. -/
def DMA_AGE_CYCLES : Fld := ⟨0x18, 0, 8⟩
/-- R221. -/
def DMA_CNT_GRANT : Fld := ⟨0x20, 0, 64⟩
/-- R222. -/
def CH_CTRL_CLEAR : Fld := ⟨0x0, 3, 1⟩
/-- R222. -/
def CH_CTRL_ABORT : Fld := ⟨0x0, 2, 1⟩
/-- R222. -/
def CH_CTRL_PAUSE : Fld := ⟨0x0, 1, 1⟩
/-- R222. -/
def CH_CTRL_CLRCNT : Fld := ⟨0x0, 0, 1⟩
/-- R222. -/
def CH_STATUS_ERR : Fld := ⟨0x8, 16, 8⟩
/-- R222. -/
def CH_STATUS_QDEPTH : Fld := ⟨0x8, 8, 3⟩
/-- R222. -/
def CH_STATUS_DQDROP : Fld := ⟨0x8, 4, 1⟩
/-- R222. -/
def CH_STATUS_RFULL : Fld := ⟨0x8, 3, 1⟩
/-- R222. -/
def CH_STATUS_STATE : Fld := ⟨0x8, 0, 3⟩
/-- R222. -/
def CH_DQ : Fld := ⟨0x10, 0, 64⟩
/-- R222. -/
def CH_POS_ROW : Fld := ⟨0x18, 32, 32⟩
/-- R222. -/
def CH_POS_OFF : Fld := ⟨0x18, 0, 32⟩
/-- R222. -/
def CH_ERRADDR : Fld := ⟨0x20, 0, 64⟩
/-- R222. -/
def CH_DESC : Fld := ⟨0x28, 0, 64⟩
/-- R222. -/
def CH_CNT_BYTES : Fld := ⟨0x68, 0, 64⟩
/-- R222. -/
def CH_CNT_BURSTS : Fld := ⟨0x70, 0, 64⟩
/-- R222. -/
def CH_CNT_WAIT : Fld := ⟨0x78, 0, 64⟩
/-- R222. -/
def CH_CNT_OFFLOAD : Fld := ⟨0x80, 0, 64⟩
/-- R222. -/
def CH_CNT_SPILL : Fld := ⟨0x88, 0, 64⟩
/-- R222. -/
def CH_CNT_RELOAD : Fld := ⟨0x90, 0, 64⟩
/-- R222. -/
def CH_CNT_RFULL : Fld := ⟨0x98, 0, 64⟩
/-- R250. -/
def PLU_STATUS_QDEPTH : Fld := ⟨0x0, 8, 6⟩
/-- R250. -/
def PLU_STATUS_ERR : Fld := ⟨0x0, 1, 1⟩
/-- R250. -/
def PLU_STATUS_BUSY : Fld := ⟨0x0, 0, 1⟩
/-- R250. -/
def PLU_CTRL_CLRCNT : Fld := ⟨0x8, 0, 1⟩
/-- R250. -/
def PLU_ACCEPTED : Fld := ⟨0x10, 0, 64⟩
/-- R250. -/
def PLU_DONE : Fld := ⟨0x18, 0, 64⟩
/-- R250. -/
def PLU_CNT_NODES : Fld := ⟨0x20, 0, 64⟩
/-- R250. -/
def PLU_CNT_COLLIDE : Fld := ⟨0x28, 0, 64⟩
/-- R250. -/
def PLU_CNT_TOKCMP : Fld := ⟨0x30, 0, 64⟩
/-- R277. -/
def SC_CTRL_CLRCNT : Fld := ⟨0x100, 0, 1⟩
/-- R277. -/
def SC_HEAD_HEAD : Fld := ⟨0x108, 0, 24⟩
/-- R277. -/
def SC_TAIL_TAIL : Fld := ⟨0x110, 0, 24⟩
/-- R277. -/
def SC_STATUS_OVER : Fld := ⟨0x118, 24, 1⟩
/-- R277. -/
def SC_STATUS_USED : Fld := ⟨0x118, 0, 24⟩
/-- R277. -/
def SC_HWM_HWM : Fld := ⟨0x120, 0, 24⟩
/-- R277. -/
def SC_EVENT_CODE : Fld := ⟨0x128, 0, 2⟩
/-- R277. -/
def SC_CNT_SPILLENT : Fld := ⟨0x130, 0, 64⟩
/-- R277. -/
def SC_CNT_RECOMP : Fld := ⟨0x138, 0, 64⟩
/-- R277. -/
def SCH_CNT_WORK : Fld := ⟨0x140, 0, 64⟩
/-- R277. -/
def SCH_CNT_WFILL_STAGE : Fld := ⟨0x148, 0, 64⟩
/-- R277. -/
def SCH_CNT_WFILL_CHAIN : Fld := ⟨0x150, 0, 64⟩
/-- R277. -/
def SCH_CNT_WFILL_EXCH : Fld := ⟨0x158, 0, 64⟩
/-- R277. -/
def SCH_CNT_OFILL_STAGE : Fld := ⟨0x160, 0, 64⟩
/-- R277. -/
def SCH_CNT_OFILL_CHAIN : Fld := ⟨0x168, 0, 64⟩
/-- R277. -/
def SCH_CNT_OFILL_EXCH : Fld := ⟨0x170, 0, 64⟩
/-- R277. -/
def SCH_CNT_IDLE_STAGE : Fld := ⟨0x178, 0, 64⟩
/-- R277. -/
def SCH_CNT_IDLE_CHAIN : Fld := ⟨0x180, 0, 64⟩
/-- R277. -/
def SCH_CNT_IDLE_EXCH : Fld := ⟨0x188, 0, 64⟩
/-- R310. -/
def GC_STATUS_ERR : Fld := ⟨0x0, 8, 1⟩
/-- R310. -/
def GC_STATUS_SAT : Fld := ⟨0x0, 7, 1⟩
/-- R310. -/
def GC_STATUS_NONFINITE : Fld := ⟨0x0, 6, 1⟩
/-- R310. -/
def GC_STATUS_BUSY : Fld := ⟨0x0, 5, 1⟩
/-- R310. -/
def GC_STATUS_NV : Fld := ⟨0x0, 3, 1⟩
/-- R310. -/
def GC_STATUS_OF : Fld := ⟨0x0, 2, 1⟩
/-- R310. -/
def GC_STATUS_UF : Fld := ⟨0x0, 1, 1⟩
/-- R310. -/
def GC_STATUS_BS : Fld := ⟨0x0, 0, 1⟩
/-- R310. -/
def GC_CTRL_CLRCNT : Fld := ⟨0x8, 0, 1⟩
/-- R310. -/
def GC_CNT_IN : Fld := ⟨0x10, 0, 64⟩
/-- R310. -/
def GC_CNT_KEPT : Fld := ⟨0x18, 0, 64⟩
/-- R310. -/
def GC_CNT_BYTES : Fld := ⟨0x20, 0, 64⟩
/-- R311. -/
def RED_STATUS_TIMEOUT : Fld := ⟨0x0, 7, 1⟩
/-- R311. -/
def RED_STATUS_ERR : Fld := ⟨0x0, 6, 1⟩
/-- R311. -/
def RED_STATUS_BUSY : Fld := ⟨0x0, 5, 1⟩
/-- R311. -/
def RED_STATUS_NV : Fld := ⟨0x0, 3, 1⟩
/-- R311. -/
def RED_STATUS_OF : Fld := ⟨0x0, 2, 1⟩
/-- R311. -/
def RED_STATUS_UF : Fld := ⟨0x0, 1, 1⟩
/-- R311. -/
def RED_STATUS_BS : Fld := ⟨0x0, 0, 1⟩
/-- R311. -/
def RED_CTRL_CLRCNT : Fld := ⟨0x8, 0, 1⟩
/-- R311. -/
def RED_TABLE : Fld := ⟨0x10, 0, 64⟩
/-- R311. -/
def RED_POLL_US : Fld := ⟨0x18, 0, 16⟩
/-- R311. -/
def RED_TIMEOUT_US : Fld := ⟨0x20, 0, 32⟩
/-- R311. -/
def RED_DONE_COUNT : Fld := ⟨0x28, 0, 32⟩
/-- R311. -/
def RED_CNT_ADD : Fld := ⟨0x30, 0, 64⟩
/-- R311. -/
def RED_CNT_POLL : Fld := ⟨0x38, 0, 64⟩
/-- R312. -/
def STY_STATUS_STALE : Fld := ⟨0x0, 7, 1⟩
/-- R312. -/
def STY_STATUS_NONFINITE : Fld := ⟨0x0, 6, 1⟩
/-- R312. -/
def STY_STATUS_CLIPVALID : Fld := ⟨0x0, 5, 1⟩
/-- R312. -/
def STY_STATUS_NV : Fld := ⟨0x0, 3, 1⟩
/-- R312. -/
def STY_STATUS_OF : Fld := ⟨0x0, 2, 1⟩
/-- R312. -/
def STY_STATUS_UF : Fld := ⟨0x0, 1, 1⟩
/-- R312. -/
def STY_STATUS_BS : Fld := ⟨0x0, 0, 1⟩
/-- R312. -/
def STY_CTRL_CLRCNT : Fld := ⟨0x8, 0, 1⟩
/-- R312. -/
def STY_MAXNORM_M : Fld := ⟨0x10, 0, 16⟩
/-- R312. -/
def STY_CLIP_STEP : Fld := ⟨0x18, 32, 32⟩
/-- R312. -/
def STY_CLIP_CLIP : Fld := ⟨0x18, 0, 16⟩
/-- R312. -/
def STY_SUM_SUMH : Fld := ⟨0x20, 16, 16⟩
/-- R312. -/
def STY_SUM_SUML : Fld := ⟨0x20, 0, 16⟩
/-- R312. -/
def STY_BCAST : Fld := ⟨0x28, 0, 64⟩
/-- R312. -/
def STY_CNT_MSG : Fld := ⟨0x30, 0, 64⟩
/-- R312. -/
def STY_CNT_STALE : Fld := ⟨0x38, 0, 64⟩
/-- R344. -/
def LK_STATUS_VERSION : Fld := ⟨0x0, 24, 8⟩
/-- R344. -/
def LK_STATUS_RTSPARE : Fld := ⟨0x0, 17, 1⟩
/-- R344. -/
def LK_STATUS_CRIER : Fld := ⟨0x0, 16, 1⟩
/-- R344. -/
def LK_STATUS_MISWIRED : Fld := ⟨0x0, 12, 1⟩
/-- R344. -/
def LK_STATUS_DEGRADED : Fld := ⟨0x0, 11, 1⟩
/-- R344. -/
def LK_STATUS_RXSPARE : Fld := ⟨0x0, 10, 1⟩
/-- R344. -/
def LK_STATUS_TXSPARE : Fld := ⟨0x0, 9, 1⟩
/-- R344. -/
def LK_STATUS_LOS : Fld := ⟨0x0, 8, 1⟩
/-- R344. -/
def LK_STATUS_STATE : Fld := ⟨0x0, 0, 3⟩
/-- R344. -/
def LK_CTRL_CLRCNT : Fld := ⟨0x8, 2, 1⟩
/-- R344. -/
def LK_CTRL_RETRAIN : Fld := ⟨0x8, 1, 1⟩
/-- R344. -/
def LK_CTRL_ENABLE : Fld := ⟨0x8, 0, 1⟩
/-- R344. -/
def LK_PARTNER_POS : Fld := ⟨0x10, 32, 10⟩
/-- R344. -/
def LK_PARTNER_ALGREV : Fld := ⟨0x10, 24, 8⟩
/-- R344. -/
def LK_PARTNER_NOLMOD : Fld := ⟨0x10, 23, 1⟩
/-- R344. -/
def LK_PARTNER_LMOD : Fld := ⟨0x10, 14, 9⟩
/-- R344. -/
def LK_PARTNER_DIE : Fld := ⟨0x10, 8, 6⟩
/-- R344. -/
def LK_PARTNER_COL : Fld := ⟨0x10, 3, 3⟩
/-- R344. -/
def LK_PARTNER_ROW : Fld := ⟨0x10, 0, 3⟩
/-- R344. -/
def LK_PARTNERID_PHYSID : Fld := ⟨0x18, 0, 64⟩
/-- R344. -/
def LK_LANES_RXUSE : Fld := ⟨0x20, 8, 7⟩
/-- R344. -/
def LK_LANES_TXUSE : Fld := ⟨0x20, 0, 7⟩
/-- R344. -/
def LK_EPOCH_EPOCH : Fld := ⟨0x28, 0, 32⟩
/-- R344. -/
def LK_SPARE_THRESH : Fld := ⟨0x30, 0, 32⟩
/-- R344. -/
def LK_CRIER_HOLD : Fld := ⟨0x38, 16, 16⟩
/-- R344. -/
def LK_CRIER_FLUSH : Fld := ⟨0x38, 0, 16⟩
/-- R344. -/
def LK_CNT_TXFLIT : Fld := ⟨0x40, 0, 64⟩
/-- R344. -/
def LK_CNT_RXFLIT : Fld := ⟨0x48, 0, 64⟩
/-- R344. -/
def LK_CNT_FECSYM : Fld := ⟨0x50, 0, 64⟩
/-- R344. -/
def LK_CNT_CRCERR : Fld := ⟨0x58, 0, 64⟩
/-- R344. -/
def LK_CNT_REPLAY : Fld := ⟨0x60, 0, 64⟩
/-- R344. -/
def LK_CNT_RETRAIN : Fld := ⟨0x68, 0, 64⟩
/-- R344. -/
def LK_CNT_STALE : Fld := ⟨0x70, 0, 64⟩
/-- R344. -/
def LK_CNT_CRIERDUP : Fld := ⟨0x78, 0, 64⟩
/-- R344. -/
def LK_CNT_CREDITWAIT : Fld := ⟨0x80, 0, 64⟩
/-- R344. -/
def LK_LANE_RXPWR : Fld := ⟨0x100, 32, 16⟩
/-- R344. -/
def LK_LANE_SYMERR : Fld := ⟨0x100, 0, 32⟩
/-- R344. -/
def LK_ROUTE_ENTRIES : Fld := ⟨0x1000, 0, 64⟩
/-- R386. -/
def MCI_ID_FWREV : Fld := ⟨0x0, 16, 16⟩
/-- R386. -/
def MCI_ID_VMAX : Fld := ⟨0x0, 8, 8⟩
/-- R386. -/
def MCI_ID_VMIN : Fld := ⟨0x0, 0, 8⟩
/-- R386. -/
def MCI_STATUS_FATAL : Fld := ⟨0x8, 1, 1⟩
/-- R386. -/
def MCI_STATUS_READY : Fld := ⟨0x8, 0, 1⟩
/-- R387. -/
def Q_CMDBASE_ADDR : Fld := ⟨0x0, 12, 52⟩
/-- R387. -/
def Q_CPLBASE_ADDR : Fld := ⟨0x8, 12, 52⟩
/-- R387. -/
def Q_CFG_ENABLE : Fld := ⟨0x10, 31, 1⟩
/-- R387. -/
def Q_CFG_VEC : Fld := ⟨0x10, 16, 6⟩
/-- R387. -/
def Q_CFG_CPLLOG2 : Fld := ⟨0x10, 8, 4⟩
/-- R387. -/
def Q_CFG_CMDLOG2 : Fld := ⟨0x10, 0, 4⟩
/-- R387. -/
def Q_CMDTAIL_TAIL : Fld := ⟨0x18, 0, 12⟩
/-- R387. -/
def Q_CMDHEAD_HEAD : Fld := ⟨0x20, 0, 12⟩
/-- R387. -/
def Q_CPLHEAD_HEAD : Fld := ⟨0x28, 0, 12⟩
/-- R387. -/
def Q_STATUS_ERRCODE : Fld := ⟨0x30, 8, 8⟩
/-- R387. -/
def Q_STATUS_ERR : Fld := ⟨0x30, 2, 1⟩
/-- R387. -/
def Q_STATUS_CPLFULL : Fld := ⟨0x30, 1, 1⟩
/-- R387. -/
def Q_STATUS_ACTIVE : Fld := ⟨0x30, 0, 1⟩
/-- R387. -/
def Q_COAL_US : Fld := ⟨0x38, 16, 16⟩
/-- R387. -/
def Q_COAL_COUNT : Fld := ⟨0x38, 0, 16⟩
/-- R431. -/
def PWR_MODE_TARGET : Fld := ⟨0x0, 0, 3⟩
/-- R431. -/
def PWR_WAKE_ALARM : Fld := ⟨0x8, 5, 1⟩
/-- R431. -/
def PWR_WAKE_TIMER : Fld := ⟨0x8, 4, 1⟩
/-- R431. -/
def PWR_WAKE_WINDOW : Fld := ⟨0x8, 3, 1⟩
/-- R431. -/
def PWR_WAKE_LINK : Fld := ⟨0x8, 2, 1⟩
/-- R431. -/
def PWR_WAKE_MESH : Fld := ⟨0x8, 1, 1⟩
/-- R431. -/
def PWR_WAKE_MCTL : Fld := ⟨0x8, 0, 1⟩
/-- R431. -/
def PWR_TIMER_US : Fld := ⟨0x10, 0, 32⟩
/-- R431. -/
def PWR_STATUS_ABORTPT : Fld := ⟨0x18, 20, 4⟩
/-- R431. -/
def PWR_STATUS_WAKESRC : Fld := ⟨0x18, 16, 4⟩
/-- R431. -/
def PWR_STATUS_BADMODE : Fld := ⟨0x18, 12, 1⟩
/-- R431. -/
def PWR_STATUS_PENDING_ON : Fld := ⟨0x18, 11, 1⟩
/-- R431. -/
def PWR_STATUS_CLKFOSC : Fld := ⟨0x18, 10, 1⟩
/-- R431. -/
def PWR_STATUS_PLL_LOCK : Fld := ⟨0x18, 9, 1⟩
/-- R431. -/
def PWR_STATUS_ENTERING : Fld := ⟨0x18, 8, 1⟩
/-- R431. -/
def PWR_STATUS_POINT : Fld := ⟨0x18, 4, 4⟩
/-- R431. -/
def PWR_STATUS_STATE : Fld := ⟨0x18, 0, 3⟩
/-- R431. -/
def PWR_CLKSEL_PLL : Fld := ⟨0x20, 0, 1⟩
/-- R431. -/
def PWR_PADHOLD_SPINE : Fld := ⟨0x28, 4, 1⟩
/-- R431. -/
def PWR_PADHOLD_MESH : Fld := ⟨0x28, 3, 1⟩
/-- R431. -/
def PWR_PADHOLD_HBM : Fld := ⟨0x28, 2, 1⟩
/-- R431. -/
def PWR_PADHOLD_LINK : Fld := ⟨0x28, 1, 1⟩
/-- R431. -/
def PWR_PADHOLD_CORE : Fld := ⟨0x28, 0, 1⟩
/-- R431. -/
def DVFS_CTRL_REQ : Fld := ⟨0x30, 0, 3⟩
/-- R431. -/
def DVFS_STATUS_RAMPING : Fld := ⟨0x38, 11, 1⟩
/-- R431. -/
def DVFS_STATUS_THROTTLED : Fld := ⟨0x38, 10, 1⟩
/-- R431. -/
def DVFS_STATUS_CLAMPED : Fld := ⟨0x38, 9, 1⟩
/-- R431. -/
def DVFS_STATUS_CAP : Fld := ⟨0x38, 6, 3⟩
/-- R431. -/
def DVFS_STATUS_CUR : Fld := ⟨0x38, 0, 3⟩
/-- R431. -/
def PWR_TEMP_NDELTA : Fld := ⟨0x40, 16, 16⟩
/-- R431. -/
def PWR_TEMP_TJ : Fld := ⟨0x40, 0, 16⟩
/-- R431. -/
def PWR_SAVEBYTES_BYTES : Fld := ⟨0x48, 0, 32⟩
/-- R431. -/
def PWR_CNT_ENTRY : Fld := ⟨0x50, 0, 64⟩
/-- R431. -/
def PWR_CNT_ABORT : Fld := ⟨0x58, 0, 64⟩
/-- R431. -/
def PWR_CNT_THROTTLE : Fld := ⟨0x60, 0, 64⟩
/-- R431. -/
def PWR_CNT_CLAMP : Fld := ⟨0x68, 0, 64⟩

end Sys2Proof.Machine
end

