-- ==== Sys2Proof/Machine/Flags.lean ====
section
/-! DEFINITION. The four sticky numeric flags (R61) and their place in a unit's status register. -/

namespace Sys2Proof.Machine

/-- Flags that a rounding raises (R61): NV, OF, UF, BS. -/
structure Flags where
  nv : Bool
  ov : Bool
  uf : Bool
  bs : Bool
  deriving DecidableEq, Repr

/-- No flag. -/
def Flags.none : Flags := ⟨false, false, false, false⟩

/-- The flags of both (R61: the flags are sticky). -/
def Flags.or (a b : Flags) : Flags := ⟨a.nv || b.nv, a.ov || b.ov, a.uf || b.uf, a.bs || b.bs⟩

/-- NV alone. -/
def Flags.NV : Flags := ⟨true, false, false, false⟩

/-- OF alone. -/
def Flags.OF : Flags := ⟨false, true, false, false⟩

/-- UF alone. -/
def Flags.UF : Flags := ⟨false, false, true, false⟩

/-- BS alone. -/
def Flags.BS : Flags := ⟨false, false, false, true⟩

/-- All flags of a list. -/
def Flags.all (l : List Flags) : Flags := l.foldl Flags.or Flags.none

/-- The flags in bits [3:0] of a status register: NV [3], OF [2], UF [1], BS [0] (R118, R147, R173, R310-R312). -/
def Flags.nibble (f : Flags) : Nat := 8 * b2n f.nv + 4 * b2n f.ov + 2 * b2n f.uf + b2n f.bs

/-- A status register with the flags set in it; a set bit stays set. -/
def Flags.into (f : Flags) (w : Word) : Word := w ||| BitVec.ofNat 64 f.nibble

end Sys2Proof.Machine
end

