-- ==== Sys2Proof/Machine/State.lean ====
section
/-! DEFINITION. The state of the module, as plain data, and its state right after reset. -/

namespace Sys2Proof.Machine

/-- Why the machine stops.  Both stops are safe: the hardware has no such unit to act. -/
inductive Fault where
  /-- raised by every meaning whose command names a die, row, link or clock domain that the part does not have
  (R1, R5, R30: the LX-24 has dies 0-23, rows 0-3); safe -/
  | noSuchUnit
  deriving DecidableEq, Repr

/-- Why a command has no meaning. -/
inductive Refusal where
  /-- raised by an arm of `exec` whose meaning is not written; safe -/
  | notModelled (mnemonic : String)
  deriving DecidableEq, Repr

/-- A number inside a unit (R106, R119, R163): NaN with the record whether it arose from arithmetic (R106), an
infinity, or `(-1)^neg * man * 2^exp`; `man = 0` is a signed zero. -/
inductive Num where
  | nan (arose : Bool)
  | inf (neg : Bool)
  | fin (neg : Bool) (man : Nat) (exp : Int)
  deriving DecidableEq, Repr

/-- An address descriptor register (R68); the reserved bits hold nothing (R11). -/
structure Desc where
  base : Word
  sbase : Word
  rows : BitVec 32
  cols : BitVec 32
  rstride : BitVec 32
  srstride : BitVec 32
  tid : BitVec 32
  irow : BitVec 32
  ibase : BitVec 50
  fmt : BitVec 4
  bsz : BitVec 2
  scaled : Bool
  deriving DecidableEq, Repr

/-- A conveyor slot (R84, R113): tags, 1,024 element codes row by row, two scale bytes per row. -/
structure Tile where
  fmt : BitVec 4
  bsz : BitVec 2
  scaled : Bool
  m : Nat
  n : Nat
  elems : List Code
  scales : List Byte
  /-- what the code will find in the slot's stored bits at the next read (R195, class 0x04; log 65) -/
  upset : Ecc := .clean
  deriving DecidableEq, Repr

/-- An active loop (R75): first body address, address after the body, count, iterations done, index register,
call depth at entry. -/
structure LoopFrame where
  start : Nat
  stop : Nat
  count : Nat
  iter : Nat
  xd : BitVec 5
  depth : Nat
  deriving DecidableEq, Repr

/-- What holds the issue of a core (R63, R66, R73, R74, R77, R78, R87). -/
inductive HoldWhy where
  | load
  | sem
  | queue
  | fence
  | barrier
  | wait
  | halt
  deriving DecidableEq, Repr

/-- A held issue, with the instruction that is held. -/
structure Hold where
  why : HoldWhy
  ins : Instr
  deriving DecidableEq, Repr

/-- An issued instruction in an engine queue with the register values captured at issue (R63). -/
structure EngOp where
  ins : Instr
  /-- its offset in core memory -/
  pc : Nat
  d0 : Desc
  d1 : Desc
  d2 : Desc
  d3 : Desc
  x0 : Word
  x1 : Word
  x2 : Word
  /-- it has executed, and its completion follows -/
  done : Bool
  /-- its engine has started it: it is no longer merely queued (R89) -/
  begun : Bool := false
  /-- groups performed, the element to write next, and results of an incomplete block (R129-R131, R140) -/
  group : Nat := 0
  next : Nat := 0
  rest : List Num := []
  /-- tiles that an RS form has popped so far (R166) -/
  got : List Tile := []
  deriving DecidableEq, Repr

/-- A completion that a sequencer-issued operation outside the core still owes: its SEN and SSEM (R66). -/
structure Owed where
  sen : Bool
  ssem : BitVec 6
  pc : Nat
  /-- performed on the module; a write sent to another module is performed once its answer has arrived -/
  done : Bool
  /-- TAG of its packet to another module -/
  tag : Nat
  /-- the address of a store -/
  addr : Word
  deriving DecidableEq, Repr

/-- How far a compressor command has come (R294, R310). -/
inductive GcStage where
  /-- not yet performed -/
  | queued
  /-- performed: the first TAG and the number of its write packets to another module, of which the command waits for
  the acknowledgements -/
  | writing (tag n : Nat)
  /-- it ended with an error, and never completes -/
  | failed
  deriving DecidableEq, Repr

/-- The completion that a CQ still owes its core (R66, R294). -/
structure GcOwed where
  sen : Bool
  ssem : BitVec 6
  pc : Nat
  stage : GcStage
  deriving DecidableEq, Repr

/-- A user function slot (R160): the images of the active and the shadow bank. -/
structure SfeSlot where
  active : List Byte
  shadow : List Byte
  deriving DecidableEq, Repr

/-- A core's state beside its register blocks. -/
structure CoreSt where
  /-- x1-x31 (R67); x0 holds nothing -/
  x : Tab Word
  /-- a0-a15 (R67) -/
  a : Tab Desc
  /-- innermost first, at most 4 (R75) -/
  loops : List LoopFrame
  /-- return stack, newest first, at most 8 (R76) -/
  rets : List Nat
  hold : Option Hold
  /-- TAG of the load, command read or write that issue waits for on another module -/
  loadTag : Option Nat
  /-- TAGs of requests sent before a core reset and not yet answered; STATE reads IDLE once none is left (R96) -/
  orphans : List Nat
  /-- the write that reset the core also set RUN: it starts once STATE is IDLE (R94, R96) -/
  startAfter : Bool
  /-- STX and DST whose write is not yet acknowledged, oldest first (R78) -/
  stores : List Owed
  /-- compressor commands of this core not complete, oldest first (R294) -/
  gcOwed : List GcOwed
  /-- prefix-lookup requests of this core not complete, oldest first (R244) -/
  pluOwed : List Owed
  /-- engine queues: 0-3 ME0-ME3, 4 VE, 5 SFE (R62), oldest first -/
  eng : Tab (List EngOp)
  /-- conveyors 0-3, oldest slot first (R84) -/
  conv : Tab (List Tile)
  /-- finished tile an ME keeps while its conveyor is full (R85) -/
  held : Tab (Option Tile)
  /-- accumulators, by me × 8 + acc: 1,024 elements, row by row; [] is all +0 (R106) -/
  acc : Tab (List Num)
  /-- tile registers t0-t31: 1,024 codes; [] is all 0x0000 (R121) -/
  tiles : Tab (List Code)
  /-- lane program slots: 32 words; [] is all END (R132) -/
  lps : Tab (List (BitVec 32))
  /-- user slots U0-U3 (R160) -/
  slots : Tab SfeSlot
  /-- base offset of the 4 KiB instruction buffer, if it holds anything (R83) -/
  ibuf : Option Nat
  /-- disturbed storage inside the core that no read has found yet, by the keys of `unitX` and its fellows: classes
  0x04-0x08 of R195 but for conveyor slots (log 65) -/
  upsets : Tab Ecc
  /-- schedule account 0 WORK, 1 WFILL, 2 OFILL, 3 IDLE, and reason (R285) -/
  acct : BitVec 2
  reason : BitVec 2
  deriving DecidableEq, Repr

/-- A queued DMA descriptor: its eight words, the address it was read from, and the error with which its read
failed (R204). -/
structure QDesc where
  words : List Word
  addr : Word
  failed : Option (BitVec 8)
  /-- TAG of its read, while another module has not answered it (R174, R204) -/
  tag : Option Nat := none
  /-- what the code will find in its queue entry (R195, class 0x09; log 65) -/
  upset : Ecc := .clean
  deriving DecidableEq, Repr

/-- A burst that has been granted and not yet acknowledged, or the fetch of a chained descriptor (R209, R212, R216). -/
structure Burst where
  serial : Nat
  /-- TAG of its first packet to another module (R325) -/
  tag : Nat
  /-- an index burst (R209) -/
  index : Bool
  src : Word
  dst : Word
  len : Nat
  row : Nat
  off : Nat
  /-- the bytes its reads found when they were issued; FILL's pattern -/
  got : List Byte
  /-- first address of a read request that returned poison (R219) -/
  bad : Option Word
  /-- false: its reads are outstanding; true: its writes are -/
  writing : Bool
  deriving DecidableEq, Repr

/-- The descriptor a channel is issuing. -/
structure HeadSt where
  desc : QDesc
  /-- it came by CHAIN, or its last burst has been granted: it takes no queue entry (log 22) -/
  byChain : Bool
  serial : Nat
  /-- next row and next byte of it to issue -/
  row : Nat
  off : Nat
  /-- indices fetched and not yet used, and how many have been asked for (R209) -/
  idx : List (BitVec 32)
  idxAsked : Nat
  deriving DecidableEq, Repr

/-- A descriptor on its way to completion, oldest first (R214). -/
structure DoneSt where
  serial : Nat
  /-- all its bursts have been granted -/
  issued : Bool
  /-- a refused descriptor owes ESEM, any other SSEM (R208) -/
  refused : Bool
  desc : QDesc
  deriving DecidableEq, Repr

/-- A DMA channel beside its registers (R204-R220). -/
structure ChanSt where
  /-- at most 4, oldest first -/
  queue : List QDesc
  head : Option HeadSt
  /-- the chained descriptor being fetched (R216) -/
  fetch : Option Burst
  bursts : List Burst
  finishing : List DoneSt
  serial : Nat
  /-- raised to level 3 until its next grant (R211) -/
  aged : Bool
  /-- ABORT or CLEAR waits for the drain (R218) -/
  aborting : Bool
  deriving DecidableEq, Repr

/-- A compressor command in the queue (R294, R295). -/
structure GcCmd where
  words : List Word
  n : Fin 256
  step : Word
  deriving DecidableEq, Repr

/-- A prefix-lookup request in the queue, with the fence registers it carries (R244). -/
structure PluReq where
  words : List Word
  die : Die
  n : Fin 256
  dies : Word
  mods : List Word
  deriving DecidableEq, Repr

/-- A prefix lookup unit beside its registers. -/
structure PluSt where
  queue : List PluReq
  /-- the performed request whose result writes await acknowledgement (R246) -/
  finished : Option PluReq
  /-- the header of its result, while the entries are not acknowledged (R246) -/
  header : List Byte
  deriving DecidableEq, Repr

/-- An entry reduced whose writes to another module await acknowledgement (R302). -/
structure RedWait where
  entry : Nat
  sq : Num
  /-- the done word and its address -/
  done : Word
  word : Word
  /-- the done word has been sent; else OUT -/
  last : Bool
  /-- first TAG and number of the packets that are to be acknowledged -/
  tag : Nat
  n : Nat
  deriving DecidableEq, Repr

/-- A reduction unit in the current step (R302-R304). -/
structure RedSt where
  /-- entries done, with their square sums -/
  done : Tab Num
  /-- entries ended with an error -/
  ended : List Nat
  /-- entries whose writes are not acknowledged -/
  wait : List RedWait
  deriving DecidableEq, Repr

/-- A Steelyard node in the current step (R305). -/
structure StySt where
  parts : List StyMsg
  /-- the die's own partial, once it has been formed -/
  own : Option Num
  /-- the node has sent its partial up, or the root has computed c -/
  sent : Bool
  deriving DecidableEq, Repr

/-- A mesh edge of a die (R185, R186). -/
structure EdgeSt where
  recentring : Bool
  fails : Nat
  deriving DecidableEq, Repr

/-- An HBM controller beside its registers (R197). -/
structure HbmSt where
  copying : Option (BitVec 5)
  spareChan : Option (BitVec 5)
  /-- row whose bank is held for post-package repair -/
  repairing : Option Nat
  deriving DecidableEq, Repr

/-- VCORE of a die: at its step, at retention (AP5), off (AP7). -/
inductive Vcore where
  | on
  | retention
  | off
  deriving DecidableEq, Repr

/-- Power of a die's HBM stacks: in use, in power-down (AP4), in self-refresh (AP6), off (AP9). -/
inductive HbmPower where
  | running
  | powerDown
  | selfRefresh
  | off
  deriving DecidableEq, Repr

/-- A request that waits for the exit of the die of its home (R420, R422). -/
inductive Held where
  /-- a register write of Torter or of the die controller to a gated unit -/
  | reg (addr : Nat) (v : Word)
  | request (r : MemReq)
  /-- a READ or WRITE packet that arrived on the link of a die: its die and OPC -/
  | packet (d : Nat) (opc : Nat) (p : TPkt)
  | windowRead (off len : Nat) (ecc : Ecc)
  | windowWrite (off : Nat) (data : List Byte)
  deriving DecidableEq, Repr

/-- Power state of a die beside its power block (R412-R430). -/
structure PowSt where
  /-- PWAIT in progress: the target -/
  entering : Option (BitVec 3)
  /-- a wake waiting for the next entry point, with its event (R424) -/
  wake : Option (Fin 6)
  /-- steps of R426 still to run, in order -/
  exits : List (Fin 9)
  /-- step requested of the power controller and not yet granted (R414) -/
  request : Option (BitVec 3)
  /-- step a ramp is moving to (R412) -/
  ramp : Option (BitVec 3)
  /-- asks for, and holds, one of the 12 ramps from off (R428) -/
  rampAsked : Bool
  ramping : Bool
  /-- PLL write held until lock (R427) -/
  pllHeld : Bool
  /-- requests accepted while another is served (R425) -/
  waiting : List (BitVec 3)
  saveBase : Nat
  /-- registers saved at AP3: a record that the save was made (R429) -/
  saved : Bool
  /-- cap by temperature (R416, R417) and by lug current (R459), and the count of cool evaluations -/
  capT : BitVec 3
  capL : BitVec 3
  cool : Nat
  /-- the cap by temperature has been moved because TJ reached 100 °C, and TJ has not fallen below 95 °C since (R417) -/
  capHot : Bool
  /-- VCORE is off because TJ reached 110 °C (R417) -/
  tripped : Bool
  /-- VCORE (R411, R423, R426) -/
  vcore : Vcore
  /-- the die fabric is stopped (AP4) -/
  fabricStopped : Bool
  /-- the stacks of the die (AP4, AP6, AP9) -/
  hbm : HbmPower
  /-- the die's link is electrically idle (AP6) -/
  linkIdle : Bool
  /-- the state below Run that the die last left or turned back from (R430) -/
  left : BitVec 3
  /-- requests that wait in the mesh node for the exit, oldest first (R420) -/
  held : List Held
  deriving DecidableEq, Repr

/-- A die's controller: the step's cores and its private state. -/
structure DieSt where
  /-- cores that PROG_LOAD named, which STEP_BEGIN starts (R270) -/
  loaded : List (Fin 256)
  /-- cores started in the step -/
  started : List (Fin 256)
  /-- participants of the die barriers (R74) -/
  participants : List (Fin 256)
  /-- arrived cores, by barrier: 0-3 die, 8 + 8c + b cluster c barrier b (R74) -/
  arrived : Tab (List (Fin 256))
  closed : Bool
  failed : Bool
  /-- TAG of the next packet to another module (R325) -/
  tag : Nat
  /-- CNT_CE at the last correctable-error notice (R198) -/
  ceBase : Nat
  /-- class code, accused kind and index of the last correctable error -/
  ceLast : Nat × Nat × Nat
  pow : PowSt
  deriving DecidableEq, Repr

/-- An entry of a recently-seen table (R341) or of the module's own (R342). -/
structure CrierEnt where
  fid : Word
  /-- the notice's UNITID and its CLASS and CODE -/
  unitid : Word
  cls : Byte
  code : Byte
  epoch : BitVec 32
  rmod : BitVec 9
  rdie : BitVec 6
  pending : Nat
  /-- copies accounted for, first one included (R342) -/
  total : Nat
  /-- flush intervals since the last increase (R342: SETTLED) -/
  quiet : Nat
  deriving DecidableEq, Repr

/-- Phases of link training (R327). -/
inductive TrainPhase where
  | idle
  | signal
  | equalise
  | laneTest
  | map
  | negotiate
  deriving DecidableEq, Repr

/-- An external link beside its registers (R318-R341). -/
structure LinkSt where
  phase : TrainPhase
  /-- a retrain keeps sequence numbers and buffers (R327) -/
  retrain : Bool
  attempts : Nat
  rxPass : BitVec 7
  txPass : BitVec 7
  /-- next SEQ to send, SEQ expected, last ACKSEQ received (R320) -/
  txSeq : BitVec 12
  rxSeq : BitVec 12
  ackSeq : BitVec 12
  /-- unacknowledged flits, oldest first, at most 1,024 -/
  replay : List (BitVec 12 × List Byte)
  nakSent : Bool
  sinceAck : Nat
  replays : Nat
  /-- bytes of packets not yet complete in the receive stream (R325) -/
  partialRx : List Byte
  /-- transport packets completed by received flits, oldest first, not yet handled: opcode, whether they used
  shared credits, packet -/
  rxPkts : List (Nat × Bool × TPkt)
  /-- reserved credits of this end's buffer that the partner has used, by channel (R324) -/
  rxUsed : Tab Nat
  /-- credits to return in the next flits: channel, shared, count -/
  owed : List (Nat × Bool × Nat)
  /-- credits of the partner's buffer: 32 channels and the shared pool (R324) -/
  txCredit : Tab Nat
  txShared : Nat
  /-- packets waiting to be sent: opcode and packet -/
  txq : List (Nat × TPkt)
  negSent : Bool
  negAcked : Bool
  negGot : Bool
  /-- the last negotiation found no common version (R329) -/
  incompatible : Bool
  /-- partner identity of the last training (R327) -/
  lastPhys : Option Word
  /-- a swap this end asked for and that is not answered -/
  swapRx : Option (BitVec 3)
  /-- the transmit map that the next alignment block brings into force (R323) -/
  nextTx : Option (BitVec 7)
  /-- flit slots since the last alignment block, and the place among the active lanes of the next byte dealt (R319) -/
  slot : Nat
  deal : Nat
  /-- control messages that wait for the window (R320, R324) -/
  ctlq : List (List Byte)
  /-- pointer of the rotating arbiter over the 32 channels (R25, R324) -/
  arb : Nat
  crier : List CrierEnt
  deriving DecidableEq, Repr

/-- A row's laser cartridge (R316, R317, R454). -/
structure RowSt where
  latchOpen : Bool
  service : Bool
  lasersOff : Bool
  /-- lasers dimmed while all links of the row are electrically idle (AP6) -/
  dimmed : Bool
  lost : Nat
  raised : Bool
  /-- the cartridge's identity record: a signed object (R454) -/
  identity : List Byte
  /-- cartridges exchanged since manufacture -/
  exchanged : Nat
  deriving DecidableEq, Repr

/-- A command packet (R392) on a path, with the sender of a management datagram (R408). -/
structure Pkt where
  version : Byte
  flags : Byte
  opcode : BitVec 16
  tag : BitVec 16
  stall : BitVec 16
  /-- LEN as the header gives it, and whether a reserved header field is not 0 -/
  len : Nat
  resv : Bool
  seq : Word
  params : List Byte
  sender : Nat
  deriving DecidableEq, Repr

/-- A reply (R393) without PHASE, which the ring adds. -/
structure Reply where
  version : Byte
  status : BitVec 16
  tag : BitVec 16
  stall : BitVec 16
  warn : BitVec 32
  seq : Word
  opcode : BitVec 16
  quiet : Bool
  data : List Byte
  sender : Nat
  deriving DecidableEq, Repr

/-- A sequence state (R394): sender, last SEQ, the packet's reply once it is made. -/
structure SeqSt where
  sender : Nat
  seq : Word
  reply : Option Reply
  deriving DecidableEq, Repr

/-- A command path (R396). -/
structure PathSt where
  /-- packets read and not yet taken up, oldest first -/
  accepted : List Pkt
  /-- the packet that has passed the checks of its header and whose command is executing or about to (R396) -/
  current : Option Pkt
  /-- place of `current` in the order of acceptance (R396) -/
  order : Nat
  /-- one state; on path 16 at most eight, most recently used first (R408) -/
  seqs : List SeqSt
  /-- replies not yet delivered, oldest first -/
  replies : List Reply
  deriving DecidableEq, Repr

/-- A ring pair beside its registers (R389, R391). -/
structure RingSt where
  cplTail : Nat
  phase : Bool
  /-- entries since the last interrupt -/
  coal : Nat
  /-- the queue was disabled while its command executes: the reply will be discarded (R390) -/
  discard : Bool
  deriving DecidableEq, Repr

/-- An event that waits for room in the event ring (R391). -/
structure Event where
  opcode : BitVec 16
  data : List Byte
  deriving DecidableEq, Repr

/-- A snapshot slot of the window (R361). -/
structure SnapSlot where
  step : Option Nat
  complete : Bool
  released : Bool
  deriving DecidableEq, Repr

/-- States of a stall (R399, STALL_QUERY). -/
inductive StallMode where
  | formed
  | job
  | stepOpen
  | held
  deriving DecidableEq, Repr

/-- A STEP_BEGIN that has its BEGIN record and has not started its step (R270, R346). -/
structure AppendWait where
  path : Fin 18
  step : Nat
  /-- the record was appended by this STEP_BEGIN: its offset and its length in the Tally area -/
  fresh : Option (Nat × Nat)
  deriving DecidableEq, Repr

/-- A close that waits for the guardian (R353, R360, R366): the part of it that comes next, 1 the copies of the mirrors and
the checkpoints marked incomplete, 2 the rest of the checkpoints, 3 their STEP, 4 the generation word, 5 snapshot and CLOSE
record, 6 the reply; and the digests and loss pair formed. -/
structure ClosingSt where
  stage : Nat
  dmod : Word
  dstep : Word
  loss : BitVec 32
  deriving DecidableEq, Repr

/-- Record of a closed step (R407). -/
structure CloseRec where
  step : Nat
  loss : BitVec 32
  dstep : Word
  dmod : Word
  snap : BitVec 2
  nonfinite : Bool
  /-- REPLAY_MISMATCH: the recorded loss pair and D_step -/
  mismatch : Option (BitVec 32 × Word)
  deriving DecidableEq, Repr

/-- A stall formed on the module (R402-R407). -/
structure StallSt where
  algrev : Byte
  dies : Word
  mods : List Word
  mode : StallMode
  /-- parameters of JOB_CONFIG, 128 bytes; [] without a job (R405) -/
  job : List Byte
  /-- P in force: R364 can set it -/
  period : Nat
  last : Option Nat
  openStep : Option Nat
  replaying : Bool
  /-- last step of a replay (v), and whether its proof has passed (R374) -/
  replayTo : Nat
  proved : Bool
  /-- at the hold: a step was open, and the last closed step (R397) -/
  openAtHold : Bool
  lastAtHold : Option Nat
  /-- a RESTORE has been made since the hold (R397) -/
  restored : Bool
  /-- restore step of a recovery in progress (R350) -/
  restoring : Option Nat
  /-- Tally: records appended, offset of the next record, and the records in the ring, oldest first: KIND, STEP, offset,
  LEN (R346, R350) -/
  serial : Nat
  tallyPos : Nat
  records : List (Nat × Nat × Nat × Nat)
  /-- records whose window copy failed: offset, LEN (R346) -/
  winFailed : List (Nat × Nat)
  /-- the chain table of every die of the stall (R252); [] before CHAIN_SET -/
  chain : List Byte
  append : Option AppendWait
  /-- path of the stall command in progress (R396) -/
  busy : Option (Fin 18)
  closing : Option ClosingSt
  sharedFeed : Bool
  snaps : List SnapSlot
  snapSkipped : Bool
  nonfinite : Bool
  closes : List CloseRec
  /-- paths whose STEP_END waits, with the step -/
  enders : List (Fin 18 × Nat)
  /-- extents of PROTECT_SET: table bytes, methods in force, changed bytes of the last 16 closes (R357-R359) -/
  protect : List (List Word)
  methods : List (BitVec 2)
  changed : List (List Nat)
  /-- the record appended last, which the owner may yet fail to acknowledge: KIND, offset, LEN (R346) -/
  lastAppend : Option (Nat × Nat × Nat)
  /-- logical modules placed anew by TOPO_LOAD during the hold (R348: spares placed) -/
  spares : List Nat
  /-- the stall's last closed step v of the recovery in progress (R366, R367), once RESTORE or a fill has found it -/
  stallLast : Option Nat
  deriving DecidableEq, Repr

/-- A fill in progress (R372): its logical module, its stall, the restore step, and the path whose FILL_START waits. -/
structure FillSt where
  lmod : Nat
  stall : Nat
  step : Nat
  path : Fin 18
  deriving DecidableEq, Repr

/-- The module controller, Torter (chapters 13 to 17). -/
structure Torter where
  stalls : Tab (Option StallSt)
  /-- entry g of the window map, 0 when invalid (R383) -/
  window : Tab Word
  paths : Tab PathSt
  /-- commands accepted so far, and the pointer of the arbiter over the paths (R396, R25) -/
  accepts : Nat
  pathPtr : Nat
  rings : Tab RingSt
  events : List Event
  droppedFault : Nat
  droppedOther : Nat
  eventSerial : Nat
  /-- notices of the module, newest first (R342) -/
  notices : List CrierEnt
  feed : Code
  /-- guardian of the module itself, and the modules it guards (R363) -/
  guardian : Option (BitVec 9)
  wards : List (BitVec 9)
  fill : Option FillSt
  /-- path of the module command in progress (R396), and the guardian that a MIRROR_ASSIGN is filling (R365) -/
  modBusy : Option (Fin 18)
  assigning : Option (BitVec 9)
  /-- the assignment in progress, and the one in force, were accepted on a shared feed (R364) -/
  assignShared : Bool
  sharedFeed : Bool
  /-- topology map in force, its bytes; [] before the first TOPO_LOAD (R334) -/
  topo : List Byte
  i3cAddr : Option (BitVec 7)
  strap : BitVec 3
  /-- SMBus chunks of a command so far, and bytes of the reply already read (R465) -/
  smbusIn : List Byte
  smbusOut : Nat
  deriving DecidableEq, Repr

/-- State of a firmware bank (R452). -/
inductive BankState where
  | empty
  | staged
  | active
  | trial
  | revoked
  deriving DecidableEq, Repr

/-- A firmware bank (R440, R452). -/
structure Bank where
  state : BankState
  bytes : List Byte
  svn : BitVec 32
  fwrev : Code
  vmin : Byte
  vmax : Byte
  lvmin : Byte
  lvmax : Byte
  deriving DecidableEq, Repr

/-- The body of the variant descriptor (R443). -/
structure Variant where
  part : Byte
  ndie : Nat
  gcmp : Bool
  plu : Bool
  algrev : Byte
  pmax : BitVec 32
  serial : Word
  deriving DecidableEq, Repr

/-- An SPDM session (R450), with its AES-256-GCM key. -/
structure Session where
  id : Nat
  established : Bool
  key : List Byte
  deriving DecidableEq, Repr

/-- A record of the repair log (R445): serial number, stack (die × 4 + controller), row, and its 64 bytes with the tag. -/
structure RepairRec where
  serial : Nat
  stack : Nat
  row : Nat
  bytes : List Byte
  deriving DecidableEq, Repr

/-- The security controller, boot flash and the responder (chapter 17). -/
structure Secure where
  variant : Variant
  /-- the key seed in the authenticated flash, the 1,952-byte public key, and PHYSID, the low 64 bits of its SHAKE256
  digest (R328, R436) -/
  seed : List Byte
  publicKey : List Byte
  physid : Word
  /-- the two signer certificates, for KEYID 1 and 2 (R439, R440) -/
  signers : List (List Byte)
  variantObj : List Byte
  repairObj : List Byte
  calibObj : List Byte
  /-- spare core and spare column mapping: physical position by die × 256 + core; column by (die × 256 + core) × 4 + me -/
  coreMap : Tab Nat
  colMap : Tab Nat
  repairLog : List RepairRec
  /-- channel that a stack's spare channel stands for, by die × 4 + controller (R197, R201) -/
  spareUsed : Tab (Option (BitVec 5))
  banks : List Bank
  running : Nat
  counter : BitVec 32
  raises : Nat
  /-- the two tagged copies: sequence number and value (R453) -/
  counterCopies : List (Nat × BitVec 32)
  /-- results of B5 and B6 (R441): clusters that failed the self-test, by die × 16 + cluster, dies that did not boot,
  stacks that failed, by die × 4 + controller, and dies without an external link that passed boot (R199) -/
  degraded : List Nat
  deadDies : List Nat
  badStacks : List Nat
  noLink : List Nat
  /-- last boot stage completed, 0-7; recovery (R441, R442) -/
  stage : Nat
  recovery : Bool
  trialBoot : Bool
  mrs : List (BitVec 512)
  extCount : Nat
  log : List (Nat × Nat × Nat × BitVec 512)
  logOverflow : Bool
  resetCause : BitVec 2
  spdmVersion : Option Byte
  /-- algorithms in force (R450) -/
  spdmAlgs : SpdmOffer
  sessions : List Session
  nextSession : Nat
  ideKeys : Tab (List Byte)
  deriving DecidableEq, Repr

/-- The module's supply, clock, time and sensor inputs and its power controller (chapters 16 and 18). -/
structure Supply where
  inputOk : Bool
  enabled : Bool
  refclk : Bool
  resetLow : Bool
  powerGood : Bool
  /-- power-up stages passed (R460): 1 the 12 V bus, 2 the always-on rails, 3 the module controller's -/
  rails : Nat
  /-- an undervoltage or overvoltage trigger must see 100 ms in range (R461) -/
  waitRange : Bool
  /-- domain k off (R30, R425) -/
  domOff : List Nat
  domSwitching : Tab (Option Bool)
  domWaiting : Tab (List Bool)
  /-- pointer of the power controller's arbiter over ports 0-36 (R415) -/
  arb : Nat
  /-- steps asked for by PWR_SET through port 36: die and step -/
  modReqs : List (Die × BitVec 3)
  /-- lug over-current steps in force; an open lug (R459) -/
  lugOver : Bool
  lugOpen : Bool
  /-- samples with a lug above its limit and with every lug calm, since the last move of the cap -/
  lugTicks : Nat
  lugCalm : Nat
  pulse : BitVec 32
  ns : BitVec 32
  outlet : Int
  inlet : Int
  deriving DecidableEq, Repr

/-- Packets that a compressor, lookup or reduction unit has sent to another module for one range (R326): they carry
`n` consecutive TAGs from `tag`. -/
structure Ask where
  die : Nat
  sunit : Nat
  write : Bool
  addr : Word
  len : Nat
  tag : Nat
  n : Nat
  deriving DecidableEq, Repr

/-- A message that leaves the module. -/
inductive Emission where
  /-- a reply or event in ring `q`: first slot, bytes -/
  | ring (q : Nat) (slot : Nat) (bytes : List Byte)
  /-- an MSI-X vector fires (R391): its number, and the message address and data of its table entry -/
  | interrupt (vec : Nat) (addr data : Word)
  /-- a line of the device cache written back to host memory (R382) -/
  | writeBack (queue : Nat) (completion : Bool) (slot : Nat) (bytes : List Byte)
  /-- Configuration Request Retry Status (R441) -/
  | retryStatus
  | datagram (sender : Nat) (bytes : List Byte)
  | ibi (b : Byte)
  | i3c (bytes : List Byte)
  | nack
  | window (bytes : List Byte) (poison : Bool)
  | read (bytes : List Byte) (poison : Bool)
  /-- a flit (R318), and what its 272 encoded bytes put on each active lane (R319) -/
  | flit (die : Nat) (bytes : List Byte) (lanes : List (Nat × List Byte))
  /-- an alignment block with the lane map in force from it on (R319) -/
  | alignment (die : Nat) (map : BitVec 7)
  /-- an SPDM response: the content that the manual states for it, and its bytes -/
  | spdm (content bytes : List Byte)
  | spdmError (code : Nat)
  /-- a partial to die `dst`, or (`system`) to the module-total node of logical module `dst` (R305) -/
  | steelyard (system : Bool) (dst : Nat) (m : StyMsg)
  | steelyardDown (system : Bool) (dst : Nat) (m : StyDown)
  | digest (stall : Nat) (dmod : Word)
  /-- D_step and the loss pair, written back to every other module of a stall by its lead (R356) -/
  | stepDigest (stall : Nat) (dstep : Word) (loss : BitVec 32)
  deriving DecidableEq, Repr

/-- What the capability structures of the attachment report (R378-R381). -/
structure AttachCaps where
  /-- functions and logical devices presented, and whether traffic goes to peers behind the switch (R378) -/
  functions : Nat
  logicalDevices : Nat
  peerToPeer : Bool
  /-- BAR0 bytes, and MSI-X vectors of BAR4 (R379) -/
  bar0Bytes : Nat
  msixVectors : Nat
  /-- PCIe DVSEC for CXL Devices: capable bits, Mem_HwInit_Mode, HDM_Count, unit of the cache size in bytes, cache size, and the
  bytes of range 1 -/
  cacheCapable : Bool
  ioCapable : Bool
  memCapable : Bool
  memHwInit : Bool
  hdmCount : Nat
  cacheUnit : Nat
  cacheSize : Nat
  rangeBytes : Nat
  /-- Flex Bus Port DVSEC -/
  flexCache : Bool
  flexIo : Bool
  flexMem : Bool
  flexFlit256 : Bool
  /-- Register Locator DVSEC: BARs of the component registers and of the MCI block, which is a vendor-specific block -/
  componentBar : Nat
  mciBar : Nat
  mciVendor : Bool
  /-- GPF DVSEC: phase 2 duration -/
  gpfPhase2 : Nat
  /-- protocols of the DOE mailbox: CDAT, and SPDM (CMA) -/
  doeCdat : Bool
  doeSpdm : Bool
  /-- capabilities of the component registers, and their HDM decoders and interleave ways (R379) -/
  rasCap : Bool
  linkCap : Bool
  hdmCap : Bool
  ideCap : Bool
  hdmDecoders : Nat
  interleave : Nat
  /-- CDAT: bytes of the one DSMAS; DSLBIS latencies in ns and bandwidths in GB/s -/
  dsmasBytes : Nat
  readNs : Nat
  writeNs : Nat
  readGBs : Nat
  writeGBs : Nat
  /-- reported absent (R380): multiple logical devices, dynamic capacity, memory pooling, sharing, back-invalidate snoop -/
  multiLogical : Bool
  dynamicCapacity : Bool
  pooling : Bool
  sharing : Bool
  backInvalidate : Bool
  deriving DecidableEq, Repr

/-- A line of the device cache (R379): a slot of a command ring, as read, or of a completion ring, as written. -/
structure CacheLine where
  queue : Nat
  completion : Bool
  slot : Nat
  bytes : List Byte
  dirty : Bool
  deriving DecidableEq, Repr

/-- The CXL attachment (R378-R382). -/
structure Attach where
  caps : AttachCaps
  /-- the MSI-X table of BAR4, two words a vector: message address, and message data with vector control above it (R379;
  log 153: the layout is PCI Express's) -/
  msix : Tab Word
  /-- the HDM decoder of BAR2: base, size, committed (R379, R382) -/
  hdmBase : Word
  hdmSize : Word
  hdmCommitted : Bool
  /-- the device cache, which holds ring lines only, oldest first (R379) -/
  cache : List CacheLine
  deriving DecidableEq, Repr

/-- The state of the module.  `pending` is the queue of commands, first in, first out; `fresh` counts the free
values drawn (the model's own field). -/
structure State where
  pending : List Instr
  fresh : Nat
  outbox : List Emission
  /-- bytes of HBM, stash and core memory, by die × 2^49 + die-local address (R174, R176) -/
  mem : List Host.Cell
  /-- poisoned protected units by their first address, rising (R195) -/
  poison : List Nat
  /-- protected units of HBM, stash and core memory whose stored bits are disturbed and that no read has found yet, by
  first address (R195, R198; log 65) -/
  upsets : Tab Ecc
  /-- every register that has been set, by address -/
  regs : Tab Word
  /-- by die × 256 + core -/
  cores : Tab CoreSt
  /-- by (die × 16 + cluster) × 32 + channel -/
  chans : Tab ChanSt
  /-- arbiter pointers, by (die × 16 + cluster) × 4 + level (R210) -/
  dmaPtr : Tab Nat
  /-- by die × 16 + cluster -/
  gcs : Tab (List GcCmd)
  plus : Tab PluSt
  reds : Tab RedSt
  stys : Tab StySt
  /-- by die × 4 + direction -/
  edges : Tab EdgeSt
  /-- by die × 4 + controller -/
  hbms : Tab HbmSt
  dies : Tab DieSt
  links : Tab LinkSt
  rows : Tab RowSt
  torter : Torter
  secure : Secure
  supply : Supply
  /-- responses of other modules not yet consumed: die, source unit, TAG, STATUS and data (R326) -/
  arrived : List (Nat × Nat × Nat × Nat × List Byte)
  /-- requests of units that are neither core nor DMA to other modules, not yet consumed -/
  asked : List Ask
  attach : Attach
  deriving DecidableEq, Repr

/-- A descriptor register after core reset (R67). -/
def Desc.zero : Desc := ⟨0, 0, 0, 0, 0, 0, 0, 0, 0, 0, 0, false⟩

/-- A core after core reset (R96, R285). -/
def CoreSt.reset : CoreSt :=
  { x := [], a := [], loops := [], rets := [], hold := none, loadTag := none, orphans := [], startAfter := false, stores := [], gcOwed := [],
    pluOwed := [], eng := [], conv := [], held := [], acc := [], tiles := [], lps := [], slots := [], ibuf := none, upsets := [],
    acct := 0, reason := 0 }

/-- A channel after module reset (R220). -/
def ChanSt.reset : ChanSt :=
  { queue := [], head := none, fetch := none, bursts := [], finishing := [], serial := 0,
    aged := false, aborting := false }

/-- A prefix lookup unit after module reset. -/
def PluSt.reset : PluSt := ⟨[], none, []⟩

/-- A reduction unit with nothing done. -/
def RedSt.reset : RedSt := ⟨[], [], []⟩

/-- A Steelyard node with nothing received. -/
def StySt.reset : StySt := ⟨[], none, false⟩

/-- A mesh edge in order. -/
def EdgeSt.reset : EdgeSt := ⟨false, 0⟩

/-- An HBM controller with no sparing in progress. -/
def HbmSt.reset : HbmSt := ⟨none, none, none⟩

/-- A die at P0 in Run with nothing asked (R431). -/
def PowSt.reset : PowSt :=
  { entering := none, wake := none, exits := [], request := none, ramp := none, rampAsked := false, ramping := false,
    pllHeld := false, waiting := [], saveBase := 0, saved := false, capT := 0, capL := 0, cool := 0,
    capHot := false, tripped := false, vcore := .on, fabricStopped := false, hbm := .running, linkIdle := false, left := 0,
    held := [] }

/-- A die's controller after module reset. -/
def DieSt.reset : DieSt :=
  { loaded := [], started := [], participants := [], arrived := [], closed := false, failed := false, tag := 0,
    ceBase := 0, ceLast := (0, 0, 0), pow := PowSt.reset }

/-- A link after module reset: dark, all credits held (R324, R344). -/
def LinkSt.reset : LinkSt :=
  { phase := .idle, retrain := false, attempts := 0, rxPass := 0, txPass := 0, txSeq := 0, rxSeq := 0,
    ackSeq := 0xFFF, replay := [], nakSent := false, sinceAck := 0, replays := 0, partialRx := [], rxPkts := [], rxUsed := [], owed := [],
    txCredit := [], txShared := 7168, txq := [], negSent := false, negAcked := false, negGot := false,
    incompatible := false, lastPhys := none, swapRx := none, nextTx := none, slot := 0, deal := 0, ctlq := [], arb := 0,
    crier := [] }

/-- A path with no packet executed (R394). -/
def PathSt.reset : PathSt := ⟨[], none, 0, [], []⟩

/-- A ring at ENABLE (R390). -/
def RingSt.reset : RingSt := ⟨0, true, 0, false⟩

/-- Torter after module reset. -/
def Torter.reset : Torter :=
  { stalls := [], window := [], paths := [], accepts := 0, pathPtr := 0, rings := [], events := [], droppedFault := 0, droppedOther := 0,
    eventSerial := 0, notices := [], feed := 0, guardian := none, wards := [], fill := none, modBusy := none, assigning := none,
    assignShared := false, sharedFeed := false, topo := [],
    i3cAddr := none, strap := 0, smbusIn := [], smbusOut := 0 }

/-- What the capability structures report (R378-R381). -/
def AttachCaps.reset : AttachCaps :=
  { functions := 1, logicalDevices := 1, peerToPeer := false, bar0Bytes := 0x10000, msixVectors := 64
    cacheCapable := true, ioCapable := true, memCapable := true, memHwInit := false, hdmCount := 1, cacheUnit := 0x10000
    cacheSize := 8, rangeBytes := 2 ^ 38
    flexCache := true, flexIo := true, flexMem := true, flexFlit256 := true
    componentBar := 2, mciBar := 0, mciVendor := true, gpfPhase2 := 0, doeCdat := true, doeSpdm := true
    rasCap := true, linkCap := true, hdmCap := true, ideCap := true, hdmDecoders := 1, interleave := 1
    dsmasBytes := 2 ^ 38, readNs := 700, writeNs := 500, readGBs := 56, writeGBs := 56
    multiLogical := false, dynamicCapacity := false, pooling := false, sharing := false, backInvalidate := false }

/-- The attachment after module reset (R382): the cache empty, the decoder uncommitted; the MSI-X table and the decoder's base
and size are 0, every vector unmasked (log 153). -/
def Attach.reset : Attach := ⟨AttachCaps.reset, [], 0, 0, false, []⟩

/-- The variant descriptor of the model's part, an LX-36 (log 4: DESIGN CHOICE among the parts of R443). -/
def Variant.lx36 : Variant := ⟨0x01, 36, true, true, 1, 19200, 0⟩

/-- An empty bank. -/
def Bank.none : Bank := ⟨.empty, [], 0, 0, 0, 0, 0, 0⟩

/-- A row whose cartridge is present, locked and whole (log 7). -/
def RowSt.reset : RowSt :=
  ⟨false, false, true, false, 0, false, signedObject 5 2 0 0 0 (wordBytes 0 ++ [0, 4] ++ List.replicate 22 0), 0⟩

/-- The bank a shipped part boots from: FWREV 1, all versions 1, an empty body (log 4). -/
def Bank.shipped : Bank := ⟨.active, signedObject 1 1 1 0x01010101 0 [], 0, 1, 1, 1, 1, 1⟩

/-- The body of a variant descriptor (R443). -/
def Variant.body (v : Variant) : List Byte :=
  [v.part] ++ leBytes 1 v.ndie ++ leBytes 1 (b2n v.gcmp + 2 * b2n v.plu) ++ [v.algrev] ++ leBytes 4 v.pmax.toNat
    ++ wordBytes v.serial ++ List.replicate 48 0

/-- The public key of the part at reset (log 4): the manual prints none. -/
def shippedKey : List Byte := List.replicate 1952 0

/-- PHYSID of that key (R436): the low 64 bits of its SHAKE256 digest. -/
def shippedId : Word := 7363046154820786656

/-- The security controller and the boot flash of a shipped part (log 4), before boot stage B1. -/
def Secure.reset : Secure :=
  { variant := Variant.lx36, seed := List.replicate 32 0, publicKey := shippedKey, physid := shippedId,
    signers := [Config.signerCert 1, Config.signerCert 2], variantObj := signedObject 2 2 0 0 shippedId Variant.lx36.body,
    repairObj := signedObject 3 2 0 0 shippedId [], calibObj := signedObject 4 2 0 0 shippedId [],
    coreMap := [], colMap := [], repairLog := [], spareUsed := [],
    banks := [Bank.shipped, Bank.none], running := 0, counter := 0, raises := 0,
    counterCopies := [(0, 0), (0, 0)], degraded := [], deadDies := [],
    badStacks := [], noLink := [], stage := 0, recovery := false, trialBoot := false,
    mrs := [0, 0, 0, 0, 0, 0], extCount := 0, log := [], logOverflow := false, resetCause := 0,
    spdmVersion := none, spdmAlgs := ⟨false, false, false, false⟩, sessions := [], nextSession := 0, ideKeys := [] }

/-- Supply and clock present, the reset input released: the state in which boot starts at B1 (R435, R462). -/
def Supply.reset : Supply :=
  { inputOk := true, enabled := true, refclk := true, resetLow := false, powerGood := true, rails := 3,
    waitRange := false, domOff := [], domSwitching := [], domWaiting := [], arb := 0, modReqs := [],
    lugOver := false, lugOpen := false, lugTicks := 0, lugCalm := 0, pulse := 0, ns := 0, outlet := 0, inlet := 0 }

/-- The module right after reset (R435): every register at its Reset value (nothing set), memory with nothing
listed, boot about to run its first stage. -/
def State.reset : State :=
  { pending := [], fresh := 0, outbox := [], mem := [], poison := [], upsets := [], regs := [], cores := [], chans := [],
    dmaPtr := [], gcs := [], plus := [], reds := [], stys := [], edges := [], hbms := [], dies := [], links := [],
    rows := [], torter := Torter.reset, secure := Secure.reset, supply := Supply.reset, arrived := [], asked := [],
    attach := Attach.reset }

end Sys2Proof.Machine
end

