-- ==== Sys2Proof/Machine/Numeric.lean ====
section
/-! DEFINITION. Number formats, scaling and rounding (R31-R57): exact numbers, decoding, RN and SR, block scales,
the stochastic-rounding generator and LG16 arithmetic. -/

namespace Sys2Proof.Machine

/-! Exact numbers. -/

/-- A signed zero. -/
def Num.zero (neg : Bool) : Num := .fin neg 0 0

/-- +1. -/
def Num.one : Num := .fin false 1 0

/-- Whether it is a NaN. -/
def Num.isNan : Num → Bool
  | .nan _ => true
  | _ => false

/-- Whether it is an infinity. -/
def Num.isInf : Num → Bool
  | .inf _ => true
  | _ => false

/-- Whether it is a zero of either sign. -/
def Num.isZero : Num → Bool
  | .fin _ m _ => m == 0
  | _ => false

/-- The sign; a NaN has none. -/
def Num.isNeg : Num → Bool
  | .nan _ => false
  | .inf n => n
  | .fin n _ _ => n

/-- The number with its sign reversed (a NaN has none, R120). -/
def Num.neg : Num → Num
  | .nan a => .nan a
  | .inf n => .inf (!n)
  | .fin n m e => .fin (!n) m e

/-- The magnitude. -/
def Num.abs : Num → Num
  | .nan a => .nan a
  | .inf _ => .inf false
  | .fin _ m e => .fin false m e

/-- An integer as a number; zero is +0. -/
def Num.ofInt (i : Int) : Num := .fin (decide (i < 0)) i.natAbs 0

/-- The number times 2^k. -/
def Num.scale (k : Int) : Num → Num
  | .fin n m e => .fin n m (e + k)
  | x => x

/-- A NaN result of inputs of which `nanIn` tells whether one is a NaN: it arose here only if none is (R39). -/
def mkNan (nanIn : Bool) : Num := .nan (!nanIn)

/-- The signed integer multiple of 2^e0 that a finite number is, for e0 at most its exponent. -/
def Num.units (n : Bool) (m : Nat) (e e0 : Int) : Int :=
  let k := m * 2 ^ (e - e0).toNat
  if n then -(k : Int) else (k : Int)

/-- Exact sum (R39, R45): an exact zero sum is +0, except that the sum of two -0 is -0.  A NaN keeps its record of
having arisen (R106). -/
def nadd (a b : Num) : Num :=
  match a, b with
  | .nan p, .nan q => .nan (p || q)
  | .nan p, _ => .nan p
  | _, .nan q => .nan q
  | .inf x, .inf y => if x = y then .inf x else .nan true
  | .inf x, _ => .inf x
  | _, .inf y => .inf y
  | .fin x m e, .fin y k f =>
    let e0 := min e f
    let s := Num.units x m e e0 + Num.units y k f e0
    if s = 0 then .fin (x && y && m == 0 && k == 0) 0 0 else .fin (decide (s < 0)) s.natAbs e0

/-- Exact difference. -/
def nsub (a b : Num) : Num := nadd a b.neg

/-- Exact product (R39). -/
def nmul (a b : Num) : Num :=
  match a, b with
  | .nan _, _ => .nan false
  | _, .nan _ => .nan false
  | .inf x, .inf y => .inf (x != y)
  | .inf x, .fin y k _ => if k = 0 then .nan true else .inf (x != y)
  | .fin x m _, .inf y => if m = 0 then .nan true else .inf (x != y)
  | .fin x m e, .fin y k f => .fin (x != y) (m * k) (e + f)

/-- Quotient with `p + 2` or more significand bits and a sticky last bit: rounding it by RN to `p` bits rounds the
exact quotient (R42). -/
def ndiv (p : Nat) (a b : Num) : Num :=
  match a, b with
  | .nan _, _ => .nan false
  | _, .nan _ => .nan false
  | .inf _, .inf _ => .nan true
  | .inf x, .fin y _ _ => .inf (x != y)
  | .fin x _ _, .inf y => .fin (x != y) 0 0
  | .fin x m e, .fin y k f =>
    if k = 0 then (if m = 0 then .nan true else .inf (x != y))
    else
      let sh := p + 4 + Nat.log2 k
      let n := m * 2 ^ sh
      let q := n / k
      .fin (x != y) (2 * q + b2n (n % k != 0)) (e - f - sh - 1)

/-- Comparison of numbers that are not NaN: -1, 0 or 1; the zeros are equal. -/
def ncmp (a b : Num) : Int :=
  match a, b with
  | .inf x, .inf y => if x = y then 0 else if x then -1 else 1
  | .inf x, _ => if x then -1 else 1
  | _, .inf y => if y then 1 else -1
  | .fin x m e, .fin y k f =>
    let e0 := min e f
    let d := Num.units x m e e0 - Num.units y k f e0
    if d < 0 then -1 else if d = 0 then 0 else 1
  | _, _ => 0

/-- Binary exponent of a nonzero magnitude: floor(log2). -/
def nlog2 (m : Nat) (e : Int) : Int := (Nat.log2 m : Int) + e

/-- RN of a magnitude to `p` significand bits, exponent unbounded (R42). -/
def rnBits (p : Nat) (m : Nat) (e : Int) : Nat × Int :=
  let len := if m = 0 then 0 else Nat.log2 m + 1
  if len ≤ p then (m, e)
  else
    let sh := len - p
    let q := m / 2 ^ sh
    let r := m % 2 ^ sh
    let h := 2 ^ (sh - 1)
    (if r > h || (r == h && q % 2 == 1) then q + 1 else q, e + sh)

/-- Rounding of an exact result to a form of `p` significand bits with exponents from `emin` to `emax`, both limits
judged on the rounded magnitude (R120, R163); a NaN that arose sets NV once. -/
def roundForm (p : Nat) (emin emax : Int) : Num → Num × Flags
  | .nan a => (.nan false, if a then Flags.NV else Flags.none)
  | .inf n => (.inf n, Flags.none)
  | .fin n m e =>
    if m = 0 then (.fin n 0 0, Flags.none)
    else
      let (q, f) := rnBits p m e
      if nlog2 q f > emax then (.inf n, Flags.OF)
      else if nlog2 q f < emin then (.fin n 0 0, Flags.UF)
      else (.fin n q f, Flags.none)

/-- Rounding to the working form (R119, R120). -/
def roundW : Num → Num × Flags := roundForm 24 (-1022) 1023

/-- Rounding to the extended form (R163). -/
def roundX : Num → Num × Flags := roundForm 48 (-1022) 1023

/-- RN to an integer, as the nearest integer with ties to even; zeros keep the sign (R46, R137 RNDI). -/
def rnInt (n : Bool) (m : Nat) (e : Int) : Num :=
  if 0 ≤ e then .fin n (m * 2 ^ e.toNat) 0
  else
    let sh := (-e).toNat
    let q := m / 2 ^ sh
    let r := m % 2 ^ sh
    let h := 2 ^ (sh - 1)
    .fin n (if r > h || (r == h && q % 2 == 1) then q + 1 else q) 0

/-- RN of a number to an integer, saturated to `lo`-`hi`; `none` for a NaN. -/
def toIntSat (lo hi : Int) : Num → Option Int
  | .nan _ => none
  | .inf n => some (if n then lo else hi)
  | .fin n m e =>
    match rnInt n m e with
    | .fin _ k _ => let i : Int := if n then -(k : Int) else (k : Int)
                    some (if i < lo then lo else if i > hi then hi else i)
    | _ => some 0

/-! Formats. -/

/-- Layout of a floating-point format (R34): exponent bits, bias, mantissa bits, code of the first magnitude past the
largest finite one, canonical NaN (R39). -/
structure FpFmt where
  ebits : Nat
  bias : Int
  mbits : Nat
  past : Nat
  width : Nat
  nan : Nat
  /-- has infinities -/
  infs : Bool
  deriving DecidableEq, Repr

/-- Format codes (R33). -/
def fBF16 : BitVec 4 := 0x0
/-- FP16 (R33). -/
def fFP16 : BitVec 4 := 0x1
/-- E5M2 (R33). -/
def fE5M2 : BitVec 4 := 0x2
/-- E4M3 (R33). -/
def fE4M3 : BitVec 4 := 0x3
/-- E2M1 (R33). -/
def fE2M1 : BitVec 4 := 0x4
/-- LG16 (R33). -/
def fLG16 : BitVec 4 := 0x5
/-- U16 (R33). -/
def fU16 : BitVec 4 := 0x6
/-- I16 (R33). -/
def fI16 : BitVec 4 := 0x7
/-- U32 (R33). -/
def fU32 : BitVec 4 := 0x8

/-- Whether a code is a defined element format: E8M0 and reserved codes are not (R33, R69). -/
def fmtDefined (f : BitVec 4) : Bool := f.toNat ≤ 8

/-- Whether a code is one of the formats of a tile register (R121). -/
def fmtTile (f : BitVec 4) : Bool := f = fBF16 || f = fFP16 || f = fLG16 || f = fU16 || f = fI16

/-- Whether a code is a floating-point format (R34). -/
def fmtFloat (f : BitVec 4) : Bool := f.toNat ≤ 4

/-- Width of an element in bits (R33). -/
def fmtBits (f : BitVec 4) : Nat :=
  if f = fE2M1 then 4 else if f = fE5M2 || f = fE4M3 || f = 9 then 8 else if f = fU32 then 32 else 16

/-- BF16 (R34). -/
def lBF16 : FpFmt := ⟨8, 127, 7, 0x7F80, 16, 0x7FC0, true⟩
/-- FP16 (R34). -/
def lFP16 : FpFmt := ⟨5, 15, 10, 0x7C00, 16, 0x7E00, true⟩
/-- E5M2 (R34). -/
def lE5M2 : FpFmt := ⟨5, 15, 2, 0x7C, 8, 0x7E, true⟩
/-- E4M3 (R35). -/
def lE4M3 : FpFmt := ⟨4, 7, 3, 0x7F, 8, 0x7F, false⟩
/-- E2M1 (R35): it has no NaN. -/
def lE2M1 : FpFmt := ⟨2, 1, 1, 8, 4, 0, false⟩

/-- The layout that a floating-point format code names; BF16 for the others, which never ask. -/
def fpOf (f : BitVec 4) : FpFmt :=
  if f = fFP16 then lFP16 else if f = fE5M2 then lE5M2 else if f = fE4M3 then lE4M3 else if f = fE2M1 then lE2M1
  else lBF16

/-- Value of a floating-point code (R34, R35, R44). -/
def fpDecode (l : FpFmt) (c : Nat) : Num :=
  let mag := c % 2 ^ (l.width - 1)
  let neg := c / 2 ^ (l.width - 1) % 2 == 1
  if l.past ≤ mag then (if l.infs && mag == l.past then .inf neg else .nan false)
  else
    let ex := mag / 2 ^ l.mbits
    let mt := mag % 2 ^ l.mbits
    if ex = 0 then .fin neg mt (1 - l.bias - l.mbits) else .fin neg (2 ^ l.mbits + mt) (ex - l.bias - l.mbits)

/-- Integer square root by Newton steps from above; `fuel` bounds them. -/
def isqrtGo (n : Nat) : Nat → Nat → Nat
  | 0, x => x
  | fuel + 1, x => let y := (x + n / x) / 2
                   if y < x then isqrtGo n fuel y else x

/-- Largest integer whose square is at most `n`. -/
def isqrt (n : Nat) : Nat := if n = 0 then 0 else isqrtGo n 80 (2 ^ (Nat.log2 n / 2 + 1))

/-- `isqrt` taken `k` times: the floor of the 2^k-th root. -/
def isqrts : Nat → Nat → Nat
  | 0, n => n
  | k + 1, n => isqrts k (isqrt n)

/-- 2^(j / 512) as a number whose last significand bit is sticky, from the exact floor of 2^(40 + (j mod 512)/512). -/
def exp2Num (j : Int) : Num :=
  let k := (j % 512).toNat
  let q := j / 512
  if k = 0 then .fin false 1 q else .fin false (2 * isqrts 9 (2 ^ (k + 512 * 40)) + 1) (q - 41)

/-- Linear form of an LG16 code, rounded by RN to 24 bits (R57, R119). -/
def lgDecode (c : Nat) : Num :=
  if c = 0 then Num.zero false else (roundW (exp2Num (2 * (c : Int) - 65536))).1

/-- Reciprocal-square-root form of an LG16 code (R57): RN to a 24-bit significand. -/
def lgRsqrt (c : Nat) : Num := (roundW (exp2Num (32768 - (c : Int)))).1

/-- Value of a code of a 16-bit or narrower element format, in the working form (R119); integers are exact. -/
def fmtDecode (f : BitVec 4) (c : Nat) : Num :=
  if f = fLG16 then lgDecode (c % 65536)
  else if f = fU16 then .fin false (c % 65536) 0
  else if f = fI16 then Num.ofInt (sext 16 c)
  else fpDecode (fpOf f) c

/-- Scale of an E8M0 code as a power of two; none for the NaN code (R36). -/
def e8m0 (c : Nat) : Option Int := if c % 256 = 255 then none else some ((c % 256 : Nat) - 127)

/-- Value of an element of a block with scale code `sc` (R50). -/
def scaledDecode (f : BitVec 4) (c sc : Nat) : Num :=
  match e8m0 sc with
  | none => .nan false
  | some k => (fpDecode (fpOf f) c).scale k

/-! Rounding to a format. -/

/-- The representable magnitude at or below `m * 2^e`, as its code, and the position above it in the gap to the next:
numerator and denominator (R42, R43).  `m` is not 0. -/
def fpFloor (l : FpFmt) (m : Nat) (e : Int) : Nat × Nat × Nat :=
  let ex := max (nlog2 m e) (1 - l.bias)
  let sh := e - (ex - l.mbits)
  let base := (ex + l.bias - 1).toNat * 2 ^ l.mbits
  if 0 ≤ sh then (base + m * 2 ^ sh.toNat, 0, 1)
  else
    let d := 2 ^ (-sh).toNat
    (base + m / d, m % d, d)

/-- RN (`none`) or SR with its 16 random bits (R42, R43): the magnitude's code. -/
def fpRound (l : FpFmt) (sr : Option Nat) (m : Nat) (e : Int) : Nat :=
  let (c, r, d) := fpFloor l m e
  match sr with
  | none => if 2 * r > d || (2 * r == d && c % 2 == 1) then c + 1 else c
  | some rnd => if 65536 * r / d + rnd ≥ 65536 then c + 1 else c

/-- Whether the exact magnitude exceeds the largest finite value of a format. -/
def fpBeyond (l : FpFmt) (m : Nat) (e : Int) : Bool :=
  let (c, r, _) := fpFloor l m e
  decide (l.past ≤ c) || (c + 1 == l.past && r != 0)

/-- The sign bit of a format. -/
def fpSign (l : FpFmt) (neg : Bool) : Nat := if neg then 2 ^ (l.width - 1) else 0

/-- A number rounded into a floating-point format that is not block-scaled (R39, R40, R42, R43, R45). -/
def fpEncode (f : BitVec 4) (sr : Option Nat) (x : Num) : Nat × Flags :=
  let l := fpOf f
  match x with
  | .nan a => (l.nan, if a then Flags.NV else Flags.none)
  | .inf n => (fpSign l n + (if l.infs then l.past else l.past - 1), Flags.none)
  | .fin n m e =>
    if m = 0 then (fpSign l n, Flags.none)
    else if f = fBF16 && nlog2 m e < -126 then (fpSign l n, Flags.UF)
    else if (f = fE5M2 || f = fE4M3) && fpBeyond l m e then (fpSign l n + l.past - 1, Flags.OF)
    else
      let c := fpRound l sr m e
      if l.past ≤ c then (fpSign l n + l.past, Flags.OF)
      else (fpSign l n + c, if c = 0 then Flags.UF else Flags.none)

/-- RN(256 * log2 (m * 2^e)) + 32768, exactly: floor(512 * log2 m) is the binary exponent of m^512, and no such value
lies midway unless it is an integer (R54). -/
def lgCode (m : Nat) (e : Int) : Int := ((Nat.log2 (m ^ 512) : Int) + 512 * e + 1) / 2 + 32768

/-- RN(256 * (2 log2 (m * 2^e) + 128)) (R54, the squaring encode). -/
def lgCodeSq (m : Nat) (e : Int) : Int := ((Nat.log2 (m ^ 1024) : Int) + 1024 * e + 1) / 2 + 32768

/-- Limits of a code computed by an encode (R54, R45, R40). -/
def lgLimit (c : Int) : Nat × Flags :=
  if c < 1 then (0, Flags.UF) else if c > 65535 then (65535, Flags.OF) else (c.toNat, Flags.none)

/-- The plain encode into LG16 (R39, R40, R54). -/
def lgEncode : Num → Nat × Flags
  | .nan a => (65535, if a then Flags.NV else Flags.none)
  | .inf n => (65535, if n then Flags.NV else Flags.none)
  | .fin n m e =>
    if m = 0 then (0, Flags.none) else if n then (65535, Flags.NV) else lgLimit (lgCode m e)

/-- The squaring encode into LG16 (R54). -/
def lgSquare : Num → Nat × Flags
  | .nan a => (65535, if a then Flags.NV else Flags.none)
  | .inf _ => (65535, Flags.none)
  | .fin _ m e => if m = 0 then (0, Flags.none) else lgLimit (lgCodeSq m e)

/-- Scaling of a code by a code offset (R55). -/
def lgScale (c : Nat) (a : Int) : Nat × Flags :=
  if c = 0 then (0, Flags.none)
  else if (c : Int) + a ≤ 0 then (0, Flags.UF)
  else if (c : Int) + a > 65535 then (65535, Flags.OF)
  else (((c : Int) + a).toNat, Flags.none)

/-- Φ(d) = RN(256 * log2(1 + 2^(-d/256))) (R56), from the floor of 2^(64 - d/256). -/
def lgPhi (d : Nat) : Nat :=
  if 2440 ≤ d then 0
  else (Nat.log2 ((2 ^ 64 + isqrts 8 (2 ^ (256 * 64 - d))) ^ 512) - 512 * 64 + 1) / 2

/-- The LG16 sum (R56). -/
def lgAdd (a b : Nat) : Nat × Flags :=
  if a = 0 then (b, Flags.none)
  else if b = 0 then (a, Flags.none)
  else
    let r := max a b + lgPhi (max a b - min a b)
    if r > 65535 then (65535, Flags.OF) else (r, Flags.none)

/-- Conversion to an integer of `lo`-`hi` (R40, R46): RN, saturating. -/
def intEncode (lo hi : Int) (w : Nat) : Num → Nat × Flags
  | .nan a => (0, if a then Flags.NV else Flags.none)
  | .inf n => (((if n then lo else hi) % (2 ^ w : Nat)).toNat, Flags.none)
  | .fin n m e =>
    match rnInt n m e with
    | .fin _ k _ =>
      let i : Int := if n then -(k : Int) else (k : Int)
      if i < lo then ((lo % (2 ^ w : Nat)).toNat, Flags.OF)
      else if i > hi then ((hi % (2 ^ w : Nat)).toNat, Flags.OF)
      else ((i % (2 ^ w : Nat)).toNat, Flags.none)
    | _ => (0, Flags.none)

/-- A number written in an element format that is not block-scaled (R40-R46).  LG16 and the integers take no random
bits (R41). -/
def fmtEncode (f : BitVec 4) (sr : Option Nat) (x : Num) : Nat × Flags :=
  if f = fLG16 then lgEncode x
  else if f = fU16 then intEncode 0 65535 16 x
  else if f = fI16 then intEncode (-32768) 32767 16 x
  else if f = fU32 then intEncode 0 4294967295 32 x
  else fpEncode f sr x

/-- Exponent of the largest finite value of a scaled format, and that value's magnitude (R48). -/
def fmtTop (f : BitVec 4) : Int × Nat × Int :=
  if f = fE2M1 then (2, 3, 1) else if f = fE4M3 then (8, 7, 6) else (15, 7, 13)

/-- The finite magnitude of a number, 0 for the others. -/
def Num.mag : Num → Nat × Int
  | .fin _ m e => (m, e)
  | _ => (0, 0)

/-- Larger of two magnitudes. -/
def magMax (a b : Nat × Int) : Nat × Int :=
  if ncmp (.fin false a.1 a.2) (.fin false b.1 b.2) < 0 then b else a

/-- The scale exponent of R48 for a largest magnitude that is not 0. -/
def scaleExp (f : BitVec 4) (m : Nat) (e : Int) : Int :=
  let (ef, mm, me) := fmtTop f
  let s := nlog2 m e - ef
  if ncmp (.fin false m e) (.fin false mm (me + s)) > 0 then s + 1 else s

/-- An element of a block written with scale exponent `s` (R48, R49). -/
def scaledEncode (f : BitVec 4) (s : Int) (x : Num) (sr : Option Nat) : Nat × Flags :=
  let l := fpOf f
  match x with
  | .fin n m e =>
    if m = 0 then (fpSign l n, Flags.none)
    else
      let c := fpRound l sr m (e - s)
      (fpSign l n + c, if c = 0 then Flags.UF else Flags.none)
  | _ => (0, Flags.none)

/-- A block written whole (R48, R49): scale code, element codes, flags.  `srs` gives the random bits of each element. -/
def blockEncode (f : BitVec 4) (xs : List Num) (srs : List (Option Nat)) : Nat × List Nat × Flags :=
  let m := xs.foldl (fun a x => magMax a x.mag) (0, 0)
  let s := scaleExp f m.1 m.2
  let bad := xs.any fun x => x.isNan || x.isInf
  if bad || (m.1 != 0 && decide (s > 127)) then
    (255, xs.map fun _ => 0,
      ⟨xs.any (fun x => decide (x = .nan true)), xs.any Num.isInf || (m.1 != 0 && decide (s > 127)), false, false⟩)
  else if m.1 = 0 then (0x7F, xs.map fun x => fpSign (fpOf f) x.isNeg, Flags.none)
  else
    let s' := if s < -127 then -127 else s
    let r := (xs.zip srs).map fun p => scaledEncode f s' p.1 p.2
    ((s' + 127).toNat, r.map (·.1),
      Flags.or (Flags.all (r.map (·.2))) (if s < -127 then Flags.BS else Flags.none))

/-! The stochastic-rounding generator. -/

/-- The mixing function (R52). -/
def mix (z : Word) : Word :=
  let z := z ^^^ (z >>> 32)
  let z := z * 0xD6E8FEB86659FD93
  let z := z ^^^ (z >>> 29)
  let z := z * 0xA5CB3A6F52E14C27
  z ^^^ (z >>> 32)

/-- k_tensor (R52): job key, step, tensor identifier, rounding site. -/
def kTensor (key step : Word) (tid : BitVec 32) (q : BitVec 16) : Word :=
  let ks := mix (key ^^^ (step &&& 0xFFFFFFFF))
  mix (ks ^^^ BitVec.ofNat 64 (tid.toNat * 65536 + q.toNat))

/-- The 16 random bits of element `i` (R52). -/
def srBits (kt : Word) (i : Nat) : Nat :=
  let w := mix (kt ^^^ mix (BitVec.ofNat 64 (i / 4)))
  bits w.toNat (16 * (i % 4) + 15) (16 * (i % 4))

/-- RN of a number to BF16, as its code (R165 and many). -/
def rnBF16 (x : Num) : Nat × Flags := fpEncode fBF16 none x

/-- Value of a BF16 code. -/
def bf16 (c : Nat) : Num := fpDecode lBF16 (c % 65536)

end Sys2Proof.Machine
end

