-- ==== Sys2Proof/Machine/Regs.lean ====
section
/-! DEFINITION. Registers by address (R176, R177, R386, R431): where each block lies, what a register reads before
anything has set it, and the one place where a register is read or written. -/

namespace Sys2Proof.Machine

/-- Start of the register region in the die-local map (R176). -/
def regionBase : Nat := 0x1F0000000000

/-- Global address of a die-local address without its module field (R174). -/
def dieAddr (d : Nat) : Nat := d * 2 ^ 49

/-- Die block of die `d` (R177). -/
def dieBlk (d : Nat) : Nat := dieAddr d + regionBase

/-- HBM4 controller `k` (R177). -/
def hbmBlk (d k : Nat) : Nat := dieBlk d + 0x10000 + k * 0x4000

/-- Mesh node (R177). -/
def meshBlk (d : Nat) : Nat := dieBlk d + 0x20000

/-- External link (R177, R344). -/
def linkBlk (d : Nat) : Nat := dieBlk d + 0x24000

/-- Reduction unit (R177). -/
def redBlk (d : Nat) : Nat := dieBlk d + 0x28000

/-- Steelyard node (R177). -/
def styBlk (d : Nat) : Nat := dieBlk d + 0x2C000

/-- Prefix lookup unit (R177). -/
def pluBlk (d : Nat) : Nat := dieBlk d + 0x30000

/-- Cluster control and router (R177). -/
def clBlk (d c : Nat) : Nat := dieBlk d + 0x100000 + c * 0x10000

/-- DMA engine, common registers (R177). -/
def dmaBlk (d c : Nat) : Nat := clBlk d c + 0x1000

/-- DMA channel (R177). -/
def chBlk (d c k : Nat) : Nat := clBlk d c + 0x2000 + k * 0x100

/-- Gradient compressor (R177). -/
def gcBlk (d c : Nat) : Nat := clBlk d c + 0x4000

/-- Core block (R177). -/
def coreBlk (d n : Nat) : Nat := dieBlk d + 0x200000 + n * 0x2000

/-- ME `k` of a core (R177). -/
def meBlk (d n k : Nat) : Nat := coreBlk d n + 0x1000 + k * 0x100

/-- VE of a core (R177). -/
def veBlk (d n : Nat) : Nat := coreBlk d n + 0x1400

/-- SFE of a core (R177). -/
def sfeBlk (d n : Nat) : Nat := coreBlk d n + 0x1500

/-- Power block of a die: private to its die controller (R431), so the model gives it a place of its own. -/
def pwrBlk (d : Nat) : Nat := 2 ^ 56 + d * 0x1000

/-- MCI block in BAR0 (R386): a place of its own. -/
def bar0Blk : Nat := 2 ^ 57

/-- Queue block (R386). -/
def queueBlk (q : Nat) : Nat := bar0Blk + 0x1000 + q * 0x40

/-- A register block. -/
inductive Blk where
  | die
  | hbm
  | mesh
  | link
  | red
  | sty
  | plu
  | cl
  | dma
  | ch
  | gc
  | core
  | me
  | ve
  | sfe
  | pwr
  | bar0
  | queue
  deriving DecidableEq, Repr

/-- Register map of a block. -/
def Blk.rows : Blk → List RegRow
  | .die => rows_die
  | .hbm => rows_hbm
  | .mesh => rows_mesh
  | .link => rows_link
  | .red => rows_red
  | .sty => rows_sty
  | .plu => rows_plu
  | .cl => rows_cl
  | .dma => rows_dma
  | .ch => rows_ch
  | .gc => rows_gc
  | .core => rows_core
  | .me => rows_me
  | .ve => rows_ve
  | .sfe => rows_sfe
  | .pwr => rows_pwr
  | .bar0 => rows_bar0
  | .queue => rows_queue

/-- Where a register address lies: block, die, instance within the die, sub-instance, offset in the block; none in a
gap (R177). -/
structure RegAt where
  blk : Blk
  die : Nat
  i : Nat
  j : Nat
  off : Nat
  deriving DecidableEq, Repr

/-- Block at an offset of the register region (R177). -/
def locateRegion (d o : Nat) : Option RegAt :=
  if o < 0x10000 then some ⟨.die, d, 0, 0, o⟩
  else if o < 0x20000 then some ⟨.hbm, d, (o - 0x10000) / 0x4000, 0, o % 0x4000⟩
  else if o < 0x24000 then some ⟨.mesh, d, 0, 0, o - 0x20000⟩
  else if o < 0x28000 then some ⟨.link, d, 0, 0, o - 0x24000⟩
  else if o < 0x2C000 then some ⟨.red, d, 0, 0, o - 0x28000⟩
  else if o < 0x30000 then some ⟨.sty, d, 0, 0, o - 0x2C000⟩
  else if o < 0x34000 then some ⟨.plu, d, 0, 0, o - 0x30000⟩
  else if o < 0x100000 then none
  else if o < 0x200000 then
    let c := (o - 0x100000) / 0x10000
    let p := o % 0x10000
    if p < 0x1000 then some ⟨.cl, d, c, 0, p⟩
    else if p < 0x2000 then some ⟨.dma, d, c, 0, p - 0x1000⟩
    else if p < 0x4000 then some ⟨.ch, d, c, (p - 0x2000) / 0x100, p % 0x100⟩
    else if p < 0x5000 then some ⟨.gc, d, c, 0, p - 0x4000⟩
    else some ⟨.cl, d, c, 0, p⟩
  else if o < 0x400000 then
    let n := (o - 0x200000) / 0x2000
    let p := o % 0x2000
    if p < 0x1000 then some ⟨.core, d, n, 0, p⟩
    else if p < 0x1400 then some ⟨.me, d, n, (p - 0x1000) / 0x100, p % 0x100⟩
    else if p < 0x1500 then some ⟨.ve, d, n, 0, p - 0x1400⟩
    else if p < 0x1600 then some ⟨.sfe, d, n, 0, p - 0x1500⟩
    else some ⟨.core, d, n, 0, 0xFF8⟩
  else none

/-- Block at a register address. -/
def locate (a : Nat) : Option RegAt :=
  if a < 2 ^ 56 then
    let l := a % 2 ^ 49
    if regionBase ≤ l then locateRegion (a / 2 ^ 49) (l - regionBase) else none
  else if a < 2 ^ 57 then some ⟨.pwr, (a - 2 ^ 56) / 0x1000, 0, 0, a % 0x1000⟩
  else
    let o := a - 2 ^ 57
    if o < 0x1000 then some ⟨.bar0, 0, 0, 0, o⟩
    else if o < 0x1440 then some ⟨.queue, 0, (o - 0x1000) / 0x40, 0, (o - 0x1000) % 0x40⟩
    else some ⟨.bar0, 0, 0, 0, 0xFF8⟩

/-- Whether a row of a register map describes the register at an offset. -/
def RegRow.has (r : RegRow) (o : Nat) : Bool :=
  if r.cnt = 1 then o == r.off else decide (r.off ≤ o) && decide (o < r.off + r.cnt * r.stride) && (o - r.off) % r.stride == 0

/-- The rows of one register. -/
def regRows (p : RegAt) : List RegRow := p.blk.rows.filter fun r => r.has (p.off / 8 * 8)

/-- The field a row describes. -/
def RegRow.fld (r : RegRow) : Fld := ⟨r.off, r.lo, r.hi + 1 - r.lo⟩

/-- The word a register holds after module reset: the Reset column of its fields (R9, R11). -/
def resetWord (a : Nat) : Word :=
  match locate a with
  | none => 0
  | some p => (regRows p).foldl (fun w r => fset w r.fld r.reset) 0

/-- The word held at a register address. -/
def regWord (s : State) (a : Nat) : Word := (tlookup s.regs a).getD (resetWord a)

/-- The state with the word at a register address replaced. -/
def setReg (s : State) (a : Nat) (w : Word) : State := { s with regs := tset s.regs a w }

/-- A field of the register block at `b`. -/
def rf (s : State) (b : Nat) (f : Fld) : Nat := fget (regWord s (b + f.off)) f

/-- A one-bit field. -/
def rfb (s : State) (b : Nat) (f : Fld) : Bool := rf s b f == 1

/-- A field replaced. -/
def wf (s : State) (b : Nat) (f : Fld) (v : Nat) : State := setReg s (b + f.off) (fset (regWord s (b + f.off)) f v)

/-- A one-bit field set. -/
def setBit (s : State) (b : Nat) (f : Fld) : State := wf s b f 1

/-- A 64-bit counter advanced, modulo 2^64. -/
def bump (s : State) (b : Nat) (f : Fld) (k : Nat) : State :=
  setReg s (b + f.off) (regWord s (b + f.off) + BitVec.ofNat 64 k)

/-- Registers `b + off` for the offsets given set to 0. -/
def clearRegs (s : State) (b : Nat) (offs : List Nat) : State :=
  offs.foldl (fun s o => setReg s (b + o) 0) s

/-- Consecutive 8-byte offsets from `lo` to `hi`. -/
def offsets (lo hi : Nat) : List Nat := (List.range ((hi - lo) / 8 + 1)).map fun i => lo + 8 * i

/-- What a write of the value `v` makes of one field of an old word (R10); trigger bits read 0. -/
def writeField (r : RegRow) (old v : Word) (w : Word) : Word :=
  match r.acc with
  | .ro | .rc => w
  | .rw => fset w r.fld (fget v r.fld)
  | .w1c => fset w r.fld (fget (old &&& ~~~ v) r.fld)
  | .w1s => fset w r.fld (fget (old ||| v) r.fld)
  | .wo => w

/-- A register write by the access codes alone (R10): reserved bits and triggers keep what they hold. -/
def writeByAccess (rows : List RegRow) (old v : Word) : Word := rows.foldl (fun w r => writeField r old v w) old

end Sys2Proof.Machine
end

