-- ==== Sys2Proof/Machine/Parts.lean ====
section
/-! DEFINITION. The parts of the module by number (R1, R5), and commands at a part that the module does not have. -/

namespace Sys2Proof.Machine

/-- What a command does. -/
abbrev Out := Host.Outcome State Fault Refusal

/-- Dies of the part (R1, R5). -/
def ndie (s : State) : Nat := s.secure.variant.ndie

/-- Whether the part has a die. -/
def dieOk (s : State) (d : Nat) : Bool := decide (d < ndie s)

/-- A command at a die that the part does not have stops; any other has the effect given. -/
def onDie (d : Nat) (s t : State) : Out := if dieOk s d then .next t else .fault .noSuchUnit

/-- Rows of the part (R5). -/
def nrow (s : State) : Nat := ndie s / 6

/-- A command at a row that the part does not have stops. -/
def onRow (r : Nat) (s t : State) : Out := if decide (r < nrow s) then .next t else .fault .noSuchUnit

/-! The parts by number. -/

/-- Key of a core. -/
def coreKey (d n : Nat) : Nat := d * 256 + n

/-- Core `n` of die `d`. -/
def getCore (s : State) (d n : Nat) : CoreSt := tget CoreSt.reset s.cores (coreKey d n)

/-- The state with a core replaced. -/
def setCore (s : State) (d n : Nat) (c : CoreSt) : State := { s with cores := tset s.cores (coreKey d n) c }

/-- The state with a core changed. -/
def modCore (s : State) (d n : Nat) (f : CoreSt → CoreSt) : State := setCore s d n (f (getCore s d n))

/-- Controller state of a die. -/
def getDie (s : State) (d : Nat) : DieSt := tget DieSt.reset s.dies d

/-- The state with a die's controller changed. -/
def modDie (s : State) (d : Nat) (f : DieSt → DieSt) : State := { s with dies := tset s.dies d (f (getDie s d)) }

/-- Key of a channel. -/
def chanKey (d c k : Nat) : Nat := (d * 16 + c) * 32 + k

/-- A DMA channel. -/
def getChan (s : State) (d c k : Nat) : ChanSt := tget ChanSt.reset s.chans (chanKey d c k)

/-- The state with a channel changed. -/
def modChan (s : State) (d c k : Nat) (f : ChanSt → ChanSt) : State :=
  { s with chans := tset s.chans (chanKey d c k) (f (getChan s d c k)) }

/-- Compressor queue of a cluster. -/
def getGc (s : State) (d c : Nat) : List GcCmd := tget [] s.gcs (d * 16 + c)

/-- The state with a compressor queue replaced. -/
def setGc (s : State) (d c : Nat) (q : List GcCmd) : State := { s with gcs := tset s.gcs (d * 16 + c) q }

/-- Prefix lookup unit of a die. -/
def getPlu (s : State) (d : Nat) : PluSt := tget PluSt.reset s.plus d

/-- The state with a prefix lookup unit replaced. -/
def setPlu (s : State) (d : Nat) (p : PluSt) : State := { s with plus := tset s.plus d p }

/-- Reduction unit of a die. -/
def getRed (s : State) (d : Nat) : RedSt := tget RedSt.reset s.reds d

/-- The state with a reduction unit replaced. -/
def setRed (s : State) (d : Nat) (r : RedSt) : State := { s with reds := tset s.reds d r }

/-- Steelyard node of a die. -/
def getSty (s : State) (d : Nat) : StySt := tget StySt.reset s.stys d

/-- The state with a Steelyard node replaced. -/
def setSty (s : State) (d : Nat) (r : StySt) : State := { s with stys := tset s.stys d r }

/-- HBM controller `k` of a die. -/
def getHbm (s : State) (d k : Nat) : HbmSt := tget HbmSt.reset s.hbms (d * 4 + k)

/-- The state with an HBM controller replaced. -/
def setHbm (s : State) (d k : Nat) (h : HbmSt) : State := { s with hbms := tset s.hbms (d * 4 + k) h }

/-- Edge of a die in a direction. -/
def getEdge (s : State) (d dir : Nat) : EdgeSt := tget EdgeSt.reset s.edges (d * 4 + dir)

/-- The state with an edge replaced. -/
def setEdge (s : State) (d dir : Nat) (e : EdgeSt) : State := { s with edges := tset s.edges (d * 4 + dir) e }

/-- Torter changed. -/
def modTorter (s : State) (f : Torter → Torter) : State := { s with torter := f s.torter }

/-- Stall `g` on the module, if formed. -/
def getStall (s : State) (g : Nat) : Option StallSt := tget none s.torter.stalls g

/-- The state with a stall replaced. -/
def setStall (s : State) (g : Nat) (x : Option StallSt) : State :=
  modTorter s fun t => { t with stalls := tset t.stalls g x }

/-- A free word, and the state that has drawn it (log 2). -/
def drawFree (s : State) : Word × State := (Config.freeWord s.fresh, { s with fresh := s.fresh + 1 })

end Sys2Proof.Machine
end

