-- ==== Sys2Proof/Machine/Wakes.lean ====
section
/-! DEFINITION. The power state of a die as the rest of the machine meets it (R418, R420, R422-R425): which clocks run, which
requests wait for an exit, and what a wake does. -/

namespace Sys2Proof.Machine

/-- Power state of a die. -/
def getPow (s : State) (d : Nat) : PowSt := (getDie s d).pow

/-- Power state of a die changed. -/
def modPow (s : State) (d : Nat) (f : PowSt → PowSt) : State := modDie s d fun x => { x with pow := f x.pow }

/-- PWR_STATUS.STATE: 0 Run, 1 Hold, 2 Rest, 3 Doze, 4 Sleep, 5 Standby (R431). -/
def pwState (s : State) (d : Nat) : Nat := rf s (pwrBlk d) PWR_STATUS_STATE

/-- PWR_STATUS.POINT. -/
def pwPoint (s : State) (d : Nat) : Nat := rf s (pwrBlk d) PWR_STATUS_POINT

/-- Whether a die is below Run: from PWAIT to the end of the exit (R422, R423, R426). -/
def belowRun (s : State) (d : Nat) : Bool :=
  (getPow s d).entering.isSome || pwState s d != 0 || (getPow s d).exits != []

/-- Whether the core and cluster clocks of a die run: they are gated from AP2 to the end of the exit (R418, R423, R426), and
without VCORE nothing runs (R417). -/
def coresClocked (s : State) (d : Nat) : Bool := (getPow s d).vcore == .on && decide (pwPoint s d < 2)

/-- Whether the fabric of a die runs, with the units on it: it is stopped from AP4 to step 7 of the exit (R423, R426). -/
def fabricRuns (s : State) (d : Nat) : Bool := (getPow s d).vcore == .on && !(getPow s d).fabricStopped

/-- A command of a unit on the core and cluster clocks: with the clocks gated nothing happens (R418). -/
def onClocked (d : Nat) (s t : State) : Out := onDie d s (if coresClocked s d then t else s)

/-- A command of a unit on the die fabric: with the fabric stopped nothing happens (R418). -/
def onFabric (d : Nat) (s t : State) : Out := onDie d s (if fabricRuns s d then t else s)

/-- Whether a request that reaches the mesh node of a die waits there for its exit (R420). -/
def waitsAt (s : State) (d : Nat) : Bool := decide (2 ≤ pwPoint s d)

/-- Entry points that a target passes, in order (R423). -/
def entryPoints (target : Nat) : List Nat :=
  match target with
  | 1 => [1, 2]
  | 2 => [1, 2, 4, 5]
  | 3 => [1, 2, 4, 5, 6, 7]
  | 4 => [1, 2, 3, 4, 5, 6, 7, 8]
  | 5 => [1, 2, 4, 5, 6, 7, 8, 9]
  | _ => []

/-- Exit steps 1-9 (as 0-8) that undo the points passed (R426). -/
def exitSteps (passed : List Nat) : List (Fin 9) :=
  let has (k : Nat) : Bool := passed.contains k
  ([(has 4, 0), (has 9, 1), (has 8, 2), (has 7, 3), (has 6, 4), (has 5, 5), (has 4, 6), (has 3, 7), (has 1, 8)] :
    List (Bool × Fin 9)).filterMap fun p => if p.1 then some p.2 else none

/-- A wake is taken: the power-up begins, and with it the requests for Run that waited for one are served (R425). -/
def takeWake (p : PowSt) (left : Nat) (exits : List (Fin 9)) : PowSt :=
  { p with
    entering := none, wake := none, exits := exits, left := BitVec.ofNat 3 left
    waiting := p.waiting.dropWhile (· == 0) }

/-- A wake taken at a point before the target (R424): entry is undone by the exit steps of the points passed.  Until the
pads are released the die counts as in the state that it was bound for (log 143). -/
def abandonEntry (s : State) (d : Nat) (ev : Nat) : State :=
  let b := pwrBlk d
  let k := pwPoint s d
  let t := ((getPow s d).entering.map (·.toNat)).getD 0
  let s := wf (wf (wf s b PWR_STATUS_ENTERING 0) b PWR_STATUS_PENDING_ON 0) b PWR_STATUS_ABORTPT k
  let s := bump (wf s b PWR_STATUS_WAKESRC ev) b PWR_CNT_ABORT 1
  modPow s d fun p => takeWake p t (exitSteps ((entryPoints t).filter (· ≤ k)))

/-- A state is left by a wake (R422, R426). -/
def leaveState (s : State) (d ev abortpt : Nat) : State :=
  let b := pwrBlk d
  let t := pwState s d
  let s := wf (wf (wf s b PWR_STATUS_PENDING_ON 0) b PWR_STATUS_ABORTPT abortpt) b PWR_STATUS_WAKESRC ev
  modPow s d fun p => takeWake p t (exitSteps (entryPoints t))

/-- Whether every die of the module has reached AP8 on its way to Sleep or Standby (R423). -/
def allAtAP8 (s : State) : Bool :=
  (List.range (ndie s)).all fun d => decide (8 ≤ pwPoint s d) &&
    ((getPow s d).entering.any (fun t => t == 4 || t == 5) || decide (4 ≤ pwState s d))

/-- Whether a wake event is enabled (R422); in Sleep and Standby only 0, 3 and 5 occur. -/
def wakeEnabled (s : State) (d ev : Nat) : Bool :=
  bits (regWord s (pwrBlk d + 8)).toNat ev ev == 1 && (decide (pwState s d < 4) || [0, 3, 5].contains ev)

/-- A wake event at one die (R422, R424): in Run there is nothing to wake, and during an exit nothing more; a die that
waits at AP8 for the others turns back there, and elsewhere the event is taken at the next entry point. -/
def wakeDie (s : State) (d : Nat) (ev : Fin 6) : State :=
  if !belowRun s d || !wakeEnabled s d ev.val || (getPow s d).exits ≠ [] then s
  else if (getPow s d).entering.isSome then
    let s := setBit s (pwrBlk d) PWR_STATUS_PENDING_ON
    if pwPoint s d = 8 && !allAtAP8 s then abandonEntry s d ev.val
    else if (getPow s d).wake.isSome then s
    else modPow s d fun p => { p with wake := some ev }
  else leaveState s d ev.val 15

/-- A wake event; a window access wakes every die from Sleep and Standby (R422). -/
def wakeAll (s : State) (d : Nat) (ev : Fin 6) : State :=
  if ev = 3 && 4 ≤ pwState s d then (List.range (ndie s)).foldl (fun s x => wakeDie s x ev) s else wakeDie s d ev

/-- A request from die `a` arrives at a home on die `b` (R420, R422): one that comes over the mesh is a wake event. -/
def meshWake (s : State) (a b : Nat) : State := if a = b then s else wakeDie s b 1

/-- Whether the home on die `b` has not answered a request from die `a` yet, because the request waits for the exit
(R420; log 141). -/
def unserved (s : State) (a b : Nat) : Bool := a != b && waitsAt s b

/-- A request put into the mesh node of a die to wait for its exit (R420). -/
def holdRequest (s : State) (d : Nat) (h : Held) : State := modPow s d fun p => { p with held := p.held ++ [h] }

/-- Whether the unit of a register is gated (R418, R423): cores and clusters from AP2, the units on the die fabric from
AP4. -/
def unitGated (s : State) (a : Nat) : Bool :=
  match locate a with
  | none => false
  | some p =>
    match p.blk with
    | .core | .me | .ve | .sfe | .cl | .dma | .ch | .gc => !coresClocked s p.die
    | .red | .sty | .plu | .hbm | .link => !fabricRuns s p.die
    | .die | .mesh | .pwr | .bar0 | .queue => false

/-- An access of Torter or of the die controller to a register (R422): where its unit is gated it is the wake event MCTL,
and the write waits for the exit. -/
def onUnit (d a : Nat) (v : Word) (s t : State) : Out :=
  onDie d s (if unitGated s a then holdRequest (wakeDie s d 0) d (.reg a v) else t)

end Sys2Proof.Machine
end

