-- ==== Sys2Proof/Machine/Wire.lean ====
section
/-! DEFINITION. Flits, transport packets and the sending side of a link (R318-R320, R324, R325, R335). -/

namespace Sys2Proof.Machine

/-- Link state of a die. -/
def getLink (s : State) (d : Nat) : LinkSt := tget LinkSt.reset s.links d

/-- The state with the link state of a die changed. -/
def modLink (s : State) (d : Nat) (f : LinkSt → LinkSt) : State := { s with links := tset s.links d (f (getLink s d)) }

/-- A message leaves the module. -/
def emit (s : State) (e : Emission) : State := { s with outbox := s.outbox ++ [e] }

/-- A packet's bytes: header, then data padded to a multiple of 16 (R325). -/
def pktBytes (opc : Nat) (p : TPkt) : List Byte :=
  let data := p.data ++ List.replicate ((16 - p.data.length % 16) % 16) 0
  leBytes 1 (opc + 16 * p.hop.toNat) ++ leBytes 1 p.epoch.toNat ++ leBytes 2 p.len.toNat ++ leBytes 4 p.tag.toNat
    ++ leBytes 8 p.addr.toNat ++ leBytes 2 (p.smod.toNat + 512 * p.sdie.toNat) ++ leBytes 2 p.sunit.toNat
    ++ leBytes 1 p.status.toNat ++ List.replicate 11 0 ++ data

/-- Bytes of data a packet carries, padded: RDATA, WRITE, NOTICE and COUNT carry LEN bytes, READ and WACK none (R325). -/
def pktDataLen (opc len : Nat) : Nat := if opc = 1 || opc = 4 then 0 else ceilDiv len 16 * 16

/-- The packet a header and its data spell (R325). -/
def pktOf (bs : List Byte) : Nat × TPkt :=
  let opc := bits (leAt bs 0 1) 3 0
  let len := bits (leAt bs 2 2) 8 0
  (opc,
   { hop := BitVec.ofNat 4 (bits (leAt bs 0 1) 7 4), epoch := BitVec.ofNat 8 (leAt bs 1 1), len := BitVec.ofNat 9 len,
     tag := BitVec.ofNat 32 (leAt bs 4 4), addr := BitVec.ofNat 64 (leAt bs 8 8),
     smod := BitVec.ofNat 9 (leAt bs 16 2), sdie := BitVec.ofNat 6 (bits (leAt bs 16 2) 14 9),
     sunit := BitVec.ofNat 16 (leAt bs 18 2), status := BitVec.ofNat 8 (leAt bs 20 1),
     data := if opc = 1 || opc = 4 then [] else slice bs 32 len })

/-- Virtual channel of a packet: 16 × class + HOP, class 1 for responses (R324). -/
def pktChan (opc : Nat) (p : TPkt) : Nat := (if opc = 3 || opc = 4 then 16 else 0) + p.hop.toNat

/-- Credits of 32 bytes that a packet uses (R324). -/
def pktCredits (opc : Nat) (p : TPkt) : Nat := ceilDiv (pktBytes opc p).length 32

/-- A flit's bytes (R318): type, sequence number, acknowledgement, credits returned, PSTART and payload, with its CRC. -/
def flitBytes (ty : Nat) (seq ack : BitVec 12) (nak : Bool) (credit : Nat × Bool × Nat) (pstart : Nat)
    (payload : List Byte) : List Byte :=
  let body := leBytes 2 (seq.toNat + 4096 * ty) ++ leBytes 2 (ack.toNat + 4096 * b2n nak)
    ++ leBytes 2 (credit.1 + 32 * b2n credit.2.1 + 64 * credit.2.2) ++ leBytes 1 pstart ++ List.replicate 5 0
    ++ slice payload 0 240
  body ++ leBytes 4 (crc32c body)

/-! Lanes (R319, R322, R323). -/

/-- Lanes in a map. -/
def laneCount (m : BitVec 7) : Nat := ((List.range 7).filter fun k => m.getLsbD k).length

/-- The maps in force shown in LK_LANES and LK_STATUS (R322, R344). -/
def showLanes (s : State) (d : Nat) (rx tx : BitVec 7) : State :=
  let b := linkBlk d
  let s := wf (wf s b LK_LANES_RXUSE rx.toNat) b LK_LANES_TXUSE tx.toNat
  let s := wf (wf s b LK_STATUS_RXSPARE (b2n (rx.getLsbD 6))) b LK_STATUS_TXSPARE (b2n (tx.getLsbD 6))
  wf s b LK_STATUS_DEGRADED (b2n (laneCount rx == 5 || laneCount tx == 5))

/-- Map in force in the receive direction. -/
def rxUse (s : State) (d : Nat) : BitVec 7 := BitVec.ofNat 7 (rf s (linkBlk d) LK_LANES_RXUSE)

/-- Map in force in the transmit direction. -/
def txUse (s : State) (d : Nat) : BitVec 7 := BitVec.ofNat 7 (rf s (linkBlk d) LK_LANES_TXUSE)

/-- Codeword A (`k` = 0: the even bytes) or B (1: the odd bytes) of a flit (R319). -/
def codeword (f : List Byte) (k : Nat) : List Byte := (List.range 128).map fun i => f.getD (2 * i + k) 0

/-- A flit with the check bytes of its codewords, alternating A and B (R319). -/
def encodeFlit (f : List Byte) : List Byte :=
  f ++ ((List.range 8).map fun i => [Config.rsCheck (codeword f 0) i, Config.rsCheck (codeword f 1) i]).flatten

/-- Bytes dealt round-robin onto lanes, the first onto the lane at place `first` (R319): each lane with its bytes. -/
def dealLanes (lanes : List Nat) (first : Nat) (bs : List Byte) : List (Nat × List Byte) :=
  (List.range lanes.length).map fun j =>
    (lanes.getD j 0,
      (((List.range bs.length).zip bs).filter fun p => (first + p.1) % lanes.length == j).map (·.2))

/-- An alignment block goes out (R319), and deals by a new map from there on where a swap has been agreed (R323). -/
def alignOut (s : State) (d : Nat) : State :=
  let s := match (getLink s d).nextTx with
    | some m => showLanes s d (rxUse s d) m
    | none => s
  emit (modLink s d fun l => { l with slot := 0, nextTx := none }) (.alignment d (txUse s d))

/-- One flit goes out (R319): every 16,384th slot carries an alignment block instead (log 138: a slot is one that this end
fills), and the encoded bytes are dealt onto the active lanes, the dealing going on from flit to flit. -/
def slotOut (s : State) (d : Nat) (f : List Byte) : State :=
  let s := if (getLink s d).slot = 16383 then alignOut s d else s
  let lanes := (List.range 7).filter fun k => (txUse s d).getLsbD k
  let first := (getLink s d).deal
  let s := modLink s d fun l => { l with slot := l.slot + 1, deal := (l.deal + 272) % lanes.length }
  emit s (.flit d f (dealLanes lanes first (encodeFlit f)))

/-! Sending (R320, R324, R325). -/

/-- A flit is sent (R320): DATA and CONTROL take a sequence number and stay in the replay buffer; an IDLE takes none.
Every flit carries the last accepted number and at most one credit return. -/
def sendFlit (s : State) (d ty : Nat) (nak : Bool) (pstart : Nat) (payload : List Byte) : State :=
  let l := getLink s d
  let cr := l.owed.headD (0, false, 0)
  let bytes := flitBytes ty l.txSeq (l.rxSeq - 1) nak cr pstart payload
  let s := modLink s d fun l =>
    { l with
      owed := l.owed.tail
      sinceAck := 0
      txSeq := if ty = 0 then l.txSeq else l.txSeq + 1
      replay := if ty = 0 then l.replay else l.replay ++ [(l.txSeq, bytes)] }
  let s := if ty = 0 then s else bump s (linkBlk d) LK_CNT_TXFLIT 1
  slotOut s d bytes

/-- Control messages go out, one to a CONTROL flit, as far as the window of 1,024 flits allows (R320, R324); `fuel` bounds
them. -/
def ctlPump : Nat → State → Nat → State
  | 0, s, _ => s
  | fuel + 1, s, d =>
    match (getLink s d).ctlq with
    | [] => s
    | m :: q =>
      if 1024 ≤ (getLink s d).replay.length then s
      else ctlPump fuel (sendFlit (modLink s d fun l => { l with ctlq := q }) d 2 false 0xFF m) d

/-- Whether the partner's buffer has room for a packet: reserved credits, else the shared pool (R324). -/
def creditFor (l : LinkSt) (opc : Nat) (p : TPkt) : Option Bool :=
  if pktCredits opc p ≤ tget 32 l.txCredit (pktChan opc p) then some false
  else if pktCredits opc p ≤ l.txShared then some true
  else none

/-- Credits of a packet taken from its channel or from the pool (R324). -/
def takeCredit (l : LinkSt) (shared : Bool) (v k : Nat) : LinkSt :=
  if shared then { l with txShared := l.txShared - k }
  else { l with txCredit := tset l.txCredit v (tget 32 l.txCredit v - k) }

/-- The first waiting packet of a channel: its place in the queue, opcode and packet. -/
def chanHead (l : LinkSt) (v : Nat) : Option (Nat × Nat × TPkt) :=
  (l.txq.findIdx? fun x => pktChan x.1 x.2 == v).bind fun i => l.txq[i]?.map fun x => (i, x.1, x.2)

/-- Whether a channel's first packet can go after `n` bytes that go before it: credits and the window of 1,024 flits cover
it (R320, R324). -/
def chanReady (l : LinkSt) (n v : Nat) : Bool :=
  match chanHead l v with
  | none => false
  | some (_, opc, p) =>
    (creditFor l opc p).isSome && decide (l.replay.length + ceilDiv (n + (pktBytes opc p).length) 240 ≤ 1024)

/-- Whether a packet that is ready lacks credits (R324). -/
def creditShort (l : LinkSt) : Bool :=
  (List.range 32).any fun v =>
    match chanHead l v with
    | none => false
    | some (_, opc, p) => (creditFor l opc p).isNone

/-- The packets that go now, in the order in which the rotating arbiter over the 32 channels takes them (R25, R324), after
`n` bytes; `fuel` bounds them. -/
def txTake : Nat → LinkSt → Nat → LinkSt × List (List Byte)
  | 0, l, _ => (l, [])
  | fuel + 1, l, n =>
    match (rotFirst 32 l.arb (chanReady l n)).bind fun v => (chanHead l v).map fun x => (v, x) with
    | none => (l, [])
    | some (v, i, opc, p) =>
      let b := pktBytes opc p
      let r := txTake fuel (takeCredit { l with txq := l.txq.eraseIdx i, arb := (v + 1) % 32 }
        ((creditFor l opc p).getD false) v (pktCredits opc p)) (n + b.length)
      (r.1, b :: r.2)

/-- Where packets packed back to back start. -/
def startsOf : Nat → List (List Byte) → List Nat
  | _, [] => []
  | n, b :: l => n :: startsOf (n + b.length) l

/-- PSTART of the flit that carries payload bytes from `a` on (R318): the first packet that starts in it. -/
def pstartOf (starts : List Nat) (a : Nat) : Nat :=
  match starts.find? fun x => decide (a ≤ x) && decide (x < a + 240) with
  | some x => x - a
  | none => 0xFF

/-- Packets packed back to back into DATA flits (R325); what is left of the last is filled (log 20). -/
def sendPackets (s : State) (d : Nat) (l : List (List Byte)) : State :=
  let all := l.flatten
  (List.range (ceilDiv all.length 240)).foldl
    (fun s k => sendFlit s d 1 false (pstartOf (startsOf 0 l) (240 * k)) ((all.drop (240 * k)).take 240)) s

/-- What a link has queued goes as far as credits and window allow, control messages ahead of data (R320, R324); a
miswired link carries no data (R331), and an electrically idle one nothing (R418, R423). -/
def linkPump (s : State) (d : Nat) : State :=
  let st := rf s (linkBlk d) LK_STATUS_STATE
  if (st ≠ 2 && st ≠ 3) || (getPow s d).linkIdle then s
  else
    let s := ctlPump (getLink s d).ctlq.length s d
    if st = 3 && !rfb s (linkBlk d) LK_STATUS_MISWIRED then
      let r := txTake (getLink s d).txq.length (getLink s d) 0
      sendPackets (modLink s d fun _ => r.1) d r.2
    else s

/-- A control message goes ahead of data in a CONTROL flit (R324, R328). -/
def sendControl (s : State) (d : Nat) (msg : List Byte) : State :=
  linkPump (modLink s d fun l => { l with ctlq := l.ctlq ++ [msg] }) d

/-! The mesh (R183-R186). -/

/-- Whether an edge of a die is down (R186, R202). -/
def edgeDown (s : State) (d dir : Nat) : Bool :=
  bits (rf s (meshBlk d) MESH_STATUS_DOWN) dir dir == 1

/-- The die next to `d` in a direction: 0 N, 1 E, 2 S, 3 W (R183). -/
def neighbour (d dir : Nat) : Nat :=
  if dir = 0 then d - 6 else if dir = 1 then d + 1 else if dir = 2 then d + 6 else d - 1

/-- Directions a request takes from one die to another: along x, then along y (R184). -/
def meshRoute (a b : Nat) : List (Nat × Nat) :=
  let xs := if a % 6 ≤ b % 6 then (List.range (b % 6 - a % 6)).map fun i => (a + i, 1)
    else (List.range (a % 6 - b % 6)).map fun i => (a - i, 3)
  let t := a / 6 * 6 + b % 6
  let ys := if a / 6 ≤ b / 6 then (List.range (b / 6 - a / 6)).map fun i => (t + 6 * i, 2)
    else (List.range (a / 6 - b / 6)).map fun i => (t - 6 * i, 0)
  xs ++ ys

/-- Whether the route of a request crosses an edge that is down at either end (R186). -/
def routeDown (s : State) (a b : Nat) : Bool :=
  (meshRoute a b).any fun p => edgeDown s p.1 p.2 || edgeDown s (neighbour p.1 p.2) ((p.2 + 2) % 4)

/-- Edges that the flits of `len` bytes cross, counted at each die that forwards them (R202: one flit for each 256 bytes,
one for a header alone). -/
def countHops (s : State) (a b len : Nat) : State :=
  (meshRoute a b).foldl (fun s p => bump s (meshBlk p.1) MESH_CNT_FLITS (max 1 (ceilDiv len 256))) s

/-! Packets on their way to a link (R335). -/

/-- Row whose link leads to logical module `m`, by the route table of die `d` (R335); none where VALID is 0, and none over
a miswired link, which no route uses (R331). -/
def routeRow (s : State) (d m : Nat) : Option Nat :=
  let e := bits (regWord s (linkBlk d + 0x1000 + m / 8 * 8)).toNat (8 * (m % 8) + 7) (8 * (m % 8))
  if e ≥ 128 && !rfb s (linkBlk (6 * (e % 8) + d % 6)) LK_STATUS_MISWIRED then some (e % 8) else none

/-- The response that answers a request (R325, R326). -/
def answerTo (s : State) (t : Nat) (p : TPkt) (status : Nat) (data : List Byte) : TPkt :=
  { p with
    hop := 0, epoch := BitVec.ofNat 8 (rf s (linkBlk t) LK_EPOCH_EPOCH), len := BitVec.ofNat 9 data.length, addr := 0,
    status := BitVec.ofNat 8 status, data := data }

/-- A packet at die `d` goes along the column to die `k` (R184, R335) and is queued on its link. -/
def linkQueue (s : State) (d k opc : Nat) (p : TPkt) : State :=
  linkPump (modLink (countHops s d k (pktBytes opc p).length) k fun l => { l with txq := l.txq ++ [(opc, p)] }) k

/-- A request whose way along the column crosses a down edge is returned to its source with poison (R186): to a unit of
this module at once, to another module by a response whose own way is open. -/
def returnPoison (s : State) (d opc : Nat) (p : TPkt) : State :=
  if opc ≠ 1 && opc ≠ 2 then s
  else if !rfb s (dieBlk d) DIE_LMOD_NOLMOD && p.smod.toNat = rf s (dieBlk d) DIE_LMOD_LMOD then
    { s with arrived := s.arrived ++ [(p.sdie.toNat, p.sunit.toNat, p.tag.toNat, 1, [])] }
  else match routeRow s d p.smod.toNat with
    | none => s
    | some r =>
      let k := 6 * r + d % 6
      if routeDown s d k then s else linkQueue s d k (opc + 2) (answerTo s d p 1 [])

/-- A packet at die `d` for module `m` is carried along the column to die (x, ROW) and queued on its link (R335); it is
not sent where no route stands. -/
def sendPacket (s : State) (d m opc : Nat) (p : TPkt) : State :=
  match routeRow s d m with
  | none => s
  | some r =>
    let k := 6 * r + d % 6
    if routeDown s d k then returnPoison s d opc p else linkQueue s d k opc p

end Sys2Proof.Machine
end

