-- ==== Sys2Proof/Machine/Ops.lean ====
section
/-! DEFINITION. The shared operations: memory with poison (R174-R198), the checks of
a request (R175, R193), fault notices (R340-R342), events (R391), core faults (R89, R90) and semaphore signals (R71). -/

namespace Sys2Proof.Machine

/-! The module's logical number (R174, R477). -/

/-- Whether the module holds no logical number. -/
def noLmod (s : State) (d : Nat) : Bool := rfb s (dieBlk d) DIE_LMOD_NOLMOD

/-- Its logical number; 0 while it holds none. -/
def lmod (s : State) (d : Nat) : Nat := rf s (dieBlk d) DIE_LMOD_LMOD

/-- Module field of a global address (R174). -/
def addrMod (a : Word) : Nat := bits a.toNat 63 55

/-- Die field (R174). -/
def addrDie (a : Word) : Nat := bits a.toNat 54 49

/-- Die-local address (R174). -/
def addrLocal (a : Word) : Nat := bits a.toNat 48 0

/-- Global address of a die-local address of die `d` of this module. -/
def globalAddr (s : State) (d l : Nat) : Word := BitVec.ofNat 64 (lmod s d * 2 ^ 55 + dieAddr d + l)

/-! The die-local map (R176). -/

/-- Start of the stash slots. -/
def stashBase : Nat := 0x100000000000

/-- Start of the core-memory slots. -/
def coreMemBase : Nat := 0x110000000000

/-- What a die-local address names: a home with the offset in it (R176, R189). -/
inductive Home where
  | hbm
  | stash (c : Nat) (off : Nat)
  | core (n : Nat) (off : Nat)
  | reg (off : Nat)
  deriving DecidableEq, Repr

/-- Home of a die-local address; none where it is unmapped or unbacked (R175, R176, R177). -/
def homeOf (l : Nat) : Option Home :=
  if l < 0x4800000000 then some .hbm
  else if stashBase ≤ l && l < stashBase + 0x10000000 then
    (if (l - stashBase) % 0x1000000 < 0x800000 then some (.stash ((l - stashBase) / 0x1000000) ((l - stashBase) % 0x1000000))
     else none)
  else if coreMemBase ≤ l && l < coreMemBase + 0x20000000 then
    (if (l - coreMemBase) % 0x200000 < 0x180000 then some (.core ((l - coreMemBase) / 0x200000) ((l - coreMemBase) % 0x200000))
     else none)
  else if regionBase ≤ l && l < regionBase + 0x400000 then
    (if (locateRegion 0 (l - regionBase)).isSome then some (.reg (l - regionBase)) else none)
  else none

/-- Whether two addresses have one home. -/
def sameHome (a b : Home) : Bool :=
  match a, b with
  | .hbm, .hbm => true
  | .stash c _, .stash k _ => c == k
  | .core n _, .core m _ => n == m
  | .reg _, .reg _ => true
  | _, _ => false

/-- First address of a range that is not backed or leaves the home of its first byte (R81, R175, R176). -/
def firstBad (l len : Nat) : Option Nat :=
  match homeOf l with
  | none => some l
  | some h =>
    if len ≤ 1 then none
    else match homeOf (l + len - 1) with
      | some h' => if sameHome h h' then none else some (l + len - 1)
      | none => ((List.range 64).map fun i => l + i).find? (fun a => a < l + len && (homeOf a).isNone) <|> some (l + len - 1)

/-- HBM controller that serves a die-local HBM address (R181). -/
def hbmCtl (a : Nat) : Nat := (bits a 9 8) ^^^ (bits a 17 16) ^^^ (bits a 25 24) ^^^ (bits a 33 32)

/-- Stack-local address of a die-local HBM address (R181). -/
def hbmStackAddr (a : Nat) : Nat := bits a 38 10 * 256 + a % 256

/-- Pseudo-channel of a stack-local address (R181). -/
def hbmPseudo (sa : Nat) : Nat := bits sa 13 8

/-! Memory bytes (R174, log 1: a byte that nothing has written reads 0). -/

/-- What an unlisted address reads as. -/
def memDefault : Byte := 0

/-- A byte of memory. -/
def mget (m : List Host.Cell) (a : Nat) : Byte := (tlookup m a).getD memDefault

/-- A byte put in place, whatever it is. -/
def mput : List Host.Cell → Nat → Byte → List Host.Cell
  | [], a, b => if b = memDefault then [] else [(a, b)]
  | (k, c) :: t, a, b =>
    if a = k then (if b = memDefault then t else (k, b) :: t)
    else if a < k then (if b = memDefault then (k, c) :: t else (a, b) :: (k, c) :: t)
    else (k, c) :: mput t a b

/-- Canonical form above a bound: addresses rising, no entry equal to what an unlisted address reads as. -/
def Memory.wfAbove : Nat → List Host.Cell → Bool
  | _, [] => true
  | lo, (k, c) :: t => decide (lo ≤ k) && c != memDefault && Memory.wfAbove (k + 1) t

/-- Canonical form of memory. -/
def Memory.wf (m : List Host.Cell) : Bool := Memory.wfAbove 0 m

/-- Consecutive bytes read. -/
def mgets (m : List Host.Cell) (a : Nat) : Nat → List Byte
  | 0 => []
  | k + 1 => mget m a :: mgets m (a + 1) k

/-- Consecutive bytes written. -/
def mputs (m : List Host.Cell) : Nat → List Byte → List Host.Cell
  | _, [] => m
  | a, b :: bs => mputs (mput m a b) (a + 1) bs

/-- Address of a byte in the model's memory. -/
def memAt (d l : Nat) : Nat := dieAddr d + l

/-- Bytes at a die-local address, whatever their state. -/
def peek (s : State) (d l len : Nat) : List Byte := mgets s.mem (memAt d l) len

/-- An 8-byte word at a die-local address. -/
def peekWord (s : State) (d l : Nat) : Word := leWord (peek s d l 8)

/-- Size of the protected unit at a die-local address: the 64-byte burst of HBM, the 8-byte piece of SRAM (R195). -/
def unitSize (l : Nat) : Nat := if l < 0x4800000000 then 64 else 8

/-- First byte of the protected unit that holds an address. -/
def unitOf (l : Nat) : Nat := l / unitSize l * unitSize l

/-- A global address aligned down to the protected unit that holds it (R89, R195). -/
def unitAddr (a : Word) : Word := a - BitVec.ofNat 64 (addrLocal a % unitSize (addrLocal a))

/-- First poisoned unit that a range touches, as a die-local address (R195). -/
def poisonIn (s : State) (d l len : Nat) : Option Nat :=
  (s.poison.find? fun u => decide (memAt d (unitOf l) ≤ u) && decide (u < memAt d l + len)).map (· - dieAddr d)

/-- A unit poisoned. -/
def poisonUnit (s : State) (d l : Nat) : State :=
  let u := memAt d (unitOf l)
  if s.poison.contains u then s
  else { s with poison := s.poison.filter (· < u) ++ u :: s.poison.filter (u < ·) }

/-- The unit's stored bits disturbed, so that the next read finds the error given (R198: what the code finds at that
read, whatever disturbances came before). -/
def disturb (s : State) (d l : Nat) (e : Ecc) : State :=
  match e with
  | .clean => s
  | _ => { s with upsets := tset s.upsets (memAt d (unitOf l)) e }

/-- Disturbed units that a range touches: first address and error (R195). -/
def upsetsIn (s : State) (d l len : Nat) : List (Nat × Ecc) :=
  s.upsets.filter fun u => decide (memAt d (unitOf l) ≤ u.1) && decide (u.1 < memAt d l + len)

/-- Whether a stack failed its boot test, so that every access that names it returns poison (R181). -/
def stackBad (s : State) (d l : Nat) : Bool :=
  l < 0x4800000000 && s.secure.stage ≥ 6 && bits (rf s (dieBlk d) DIE_CAP_HBMOK) (hbmCtl l) (hbmCtl l) == 0

/-- The pieces of a range in single 256-byte granules: address and bytes (R181); `fuel` bounds them. -/
def granulePieces : Nat → Nat → Nat → List (Nat × Nat)
  | 0, _, _ => []
  | _, _, 0 => []
  | fuel + 1, l, len => (l, min len (256 - l % 256)) :: granulePieces fuel (l + (256 - l % 256)) (len - (256 - l % 256))

/-- Granules of 256 bytes that a range touches. -/
def granules (l len : Nat) : Nat := if len = 0 then 0 else (l + len - 1) / 256 - l / 256 + 1

/-- The pieces of a range by granules. -/
def piecesOf (l len : Nat) : List (Nat × Nat) := granulePieces (granules l len) l len

/-- First address of a range that lies on a failed stack (R181). -/
def deadIn (s : State) (d l len : Nat) : Option Nat := ((piecesOf l len).find? fun p => stackBad s d p.1).map (·.1)

/-- Each granule of an HBM range counted at the controller that serves it (R181, R201); a failed stack performs nothing. -/
def countGranules (s : State) (d : Nat) (f : Fld) (l len : Nat) : State :=
  (piecesOf l len).foldl (fun s p => if stackBad s d p.1 then s else bump s (hbmBlk d (hbmCtl p.1)) f 1) s

/-- Bytes put in place: they replace what was there; a unit covered whole is no longer poisoned nor disturbed (R195,
R198). -/
def putBytes (s : State) (d l : Nat) (bs : List Byte) : State :=
  let whole := fun u => decide (memAt d l ≤ u) && decide (u + unitSize (u - dieAddr d) ≤ memAt d l + bs.length)
  { s with
    mem := mputs s.mem (memAt d l) bs
    poison := s.poison.filter fun u => !whole u
    upsets := s.upsets.filter fun u => !whole u.1 }

/-- An instruction buffer that holds an address of a range is discarded (R83). -/
def dropIbuf (s : State) (d l len : Nat) : State :=
  match homeOf l with
  | some (.core n off) =>
    modCore s d n fun c =>
      { c with ibuf := match c.ibuf with
          | some b => if off < b + 4096 && b < off + len then none else some b
          | none => none }
  | _ => s

/-- Bytes written at their home (R190); what lies on a failed stack is not written (R181); an instruction buffer that
holds one of them is discarded (R83). -/
def poke (s : State) (d l : Nat) (bs : List Byte) : State :=
  let t := match deadIn s d l bs.length with
    | none => putBytes s d l bs
    | some _ => (piecesOf l bs.length).foldl
        (fun s p => if stackBad s d p.1 then s else putBytes s d p.1 (slice bs (p.1 - l) p.2)) s
  dropIbuf (if l < 0x4800000000 then countGranules t d HBM_CNT_WR l bs.length else t) d l bs.length

/-! Events (R391) and fault notices (R340-R342). -/

/-- Slots of a completion ring (R387). -/
def cplSlots (s : State) (q : Nat) : Nat := 2 ^ rf s (queueBlk q) Q_CFG_CPLLOG2

/-- Ring state of a queue. -/
def getRing (s : State) (q : Nat) : RingSt := tget RingSt.reset s.torter.rings q

/-- The state with a ring changed. -/
def modRing (s : State) (q : Nat) (f : RingSt → RingSt) : State :=
  modTorter s fun t => { t with rings := tset t.rings q (f (tget RingSt.reset t.rings q)) }

/-- Free completion slots, one always left free (R389). -/
def cplRoom (s : State) (q : Nat) : Nat :=
  let n := cplSlots s q
  (rf s (queueBlk q) Q_CPLHEAD_HEAD + n - (getRing s q).cplTail - 1) % n

/-- Slots that the event ring has free for entries, while it takes any (R390, R391). -/
def eventRoom (s : State) : Nat :=
  if rfb s (queueBlk 16) Q_CFG_ENABLE && !rfb s (queueBlk 16) Q_STATUS_ERR then cplRoom s 16 else 0

/-- Events of a list that do not fit in the slots given, and that the module controller therefore holds (R391). -/
def heldEvents : Nat → List Event → Nat
  | _, [] => 0
  | room, e :: l =>
    let n := ceilDiv (32 + e.data.length) 64
    if n ≤ room then heldEvents (room - n) l else l.length + 1

/-- An event for the event ring: it waits its turn; of the events that the ring has no room for the module controller holds
256, and it drops and counts the rest (R391). -/
def postEvent (s : State) (opcode : BitVec 16) (data : List Byte) : State :=
  let l := s.torter.events ++ [⟨opcode, data⟩]
  if 256 < heldEvents (eventRoom s) l then
    modTorter s fun t =>
      if opcode = 0x07F0 then { t with droppedFault := t.droppedFault + 1 }
      else { t with droppedOther := t.droppedOther + 1 }
  else modTorter s fun t => { t with events := l }

/-- UNITID (R340, R473). -/
def unitId (kind mod die idx : Nat) : Word :=
  BitVec.ofNat 64 (kind * 2 ^ 60 + mod * 2 ^ 51 + die * 2 ^ 45 + idx)

/-- FID (R340). -/
def fidOf (u : Word) (epoch : Nat) : Word := mix (u ^^^ mix (BitVec.ofNat 64 epoch))

/-- The 32 bytes of a notice (R340). -/
def noticeBytes (e : CrierEnt) (count : Nat) : List Byte :=
  leBytes 8 e.fid.toNat ++ leBytes 8 e.unitid.toNat ++ leBytes 4 e.epoch.toNat ++ [e.cls, e.code]
    ++ leBytes 2 e.rmod.toNat ++ leBytes 1 e.rdie.toNat ++ [0, 0, 0] ++ leBytes 4 count

/-- The notice that 32 bytes spell, with its COUNT (R340). -/
def noticeOf (bs : List Byte) : CrierEnt × Nat :=
  ({ fid := BitVec.ofNat 64 (leAt bs 0 8), unitid := BitVec.ofNat 64 (leAt bs 8 8),
     epoch := BitVec.ofNat 32 (leAt bs 16 4), cls := BitVec.ofNat 8 (leAt bs 20 1), code := BitVec.ofNat 8 (leAt bs 21 1),
     rmod := BitVec.ofNat 9 (leAt bs 22 2), rdie := BitVec.ofNat 6 (leAt bs 24 1), pending := 0, total := 1, quiet := 0 },
   leAt bs 28 4)

/-- Place of logical module `m` in the topology map: VALID and position (R334). -/
def topoPlace (s : State) (m : Nat) : Option Nat :=
  let t := s.torter.topo
  let w := leAt t (64 + 16 * leAt t 2 2 + 2 * m) 2
  if t ≠ [] && w ≥ 32768 then some (w % 1024) else none

/-- The collector of notices: COLL0, or COLL1 when COLL0 is not placed (R334, R341). -/
def collector (s : State) : Option Nat :=
  let t := s.torter.topo
  let c0 := leAt t 8 2 % 512
  let c1 := leAt t 10 2 % 512
  if (topoPlace s c0).isSome then some c0 else if (topoPlace s c1).isSome then some c1 else none

/-- TAG for the next packet of a die (R325). -/
def drawTag (s : State) (d : Nat) : BitVec 32 × State :=
  (BitVec.ofNat 32 (getDie s d).tag, modDie s d fun x => { x with tag := x.tag + 1 })

/-- A packet that die `d` originates (R325). -/
def newPacket (s : State) (d : Nat) (tag : BitVec 32) (addr : Word) (unit len : Nat) (data : List Byte) : TPkt :=
  { hop := 0, epoch := BitVec.ofNat 8 (rf s (linkBlk d) LK_EPOCH_EPOCH), len := BitVec.ofNat 9 len, tag := tag,
    addr := addr, smod := BitVec.ofNat 9 (lmod s d), sdie := BitVec.ofNat 6 d, sunit := BitVec.ofNat 16 unit,
    status := 0, data := data }

/-- A NOTICE (opcode 5) or COUNT (6) sent from die `d` towards the collector `m` (R325, R341). -/
def sendNotice (s : State) (d m opc : Nat) (e : CrierEnt) (count : Nat) : State :=
  let (tag, s) := drawTag s d
  sendPacket s d m opc (newPacket s d tag (BitVec.ofNat 64 (m * 2 ^ 55)) 0 32 (noticeBytes e count))

/-- Whether a module number is this module's own (R174, R477). -/
def isOwn (s : State) (m : Nat) : Bool := !noLmod s 0 && lmod s 0 == m

/-- The first notice of a FID at the module controller (R341, R342, R477): to the host as an event where this module is
the collector or the notice can reach none, else towards the collector. -/
def forwardNotice (s : State) (d : Nat) (e : CrierEnt) : State :=
  match collector s with
  | some m =>
    if !noLmod s 0 && !isOwn s m && (routeRow s d m).isSome then sendNotice s d m 5 e 1
    else postEvent s 0x07F0 (noticeBytes e 1)
  | none => postEvent s 0x07F0 (noticeBytes e 1)

/-- A COUNT that the module controller sends from die `d` for an entry's pending copies (R341, R342): none where this
module is the collector or can reach none. -/
def sendModCount (s : State) (d : Nat) (e : CrierEnt) : State :=
  if e.pending = 0 then s
  else match collector s with
    | some m => if isOwn s m || noLmod s 0 || (routeRow s d m).isNone then s else sendNotice s d m 6 e e.pending
    | none => s

/-- Entries of the module controller's table of notices (R342). -/
def noticeCap : Nat := 4096

/-- A full table of the module controller loses its oldest entry, whose pending copies go out first (R341, R342). -/
def dropOldest (s : State) (d : Nat) : State :=
  if s.torter.notices.length < noticeCap then s
  else
    let s := match s.torter.notices.getLast? with
      | some old => sendModCount s d old
      | none => s
    modTorter s fun t => { t with notices := t.notices.dropLast }

/-- What the module controller's table does with a notice or a count of `k` copies (R342). -/
def takeNotice (s : State) (d : Nat) (e : CrierEnt) (k : Nat) : State :=
  if s.torter.notices.any (fun x => x.fid == e.fid) then
    modTorter s fun t =>
      { t with notices := t.notices.map fun x =>
          if x.fid = e.fid then { x with pending := x.pending + k, total := x.total + k, quiet := 0 } else x }
  else
    let s := modTorter (dropOldest s d) fun t =>
      { t with notices := { e with pending := 0, total := k, quiet := 0 } :: t.notices }
    forwardNotice s d e

/-- A fault notice raised on die `d` (R340, R473-R475). -/
def raiseNotice (s : State) (d kind accMod accDie idx cls code : Nat) : State :=
  let ep := rf s (linkBlk d) LK_EPOCH_EPOCH
  let u := unitId kind accMod accDie idx
  takeNotice s d
    { fid := fidOf u ep, unitid := u, cls := BitVec.ofNat 8 cls, code := BitVec.ofNat 8 code,
      epoch := BitVec.ofNat 32 ep, rmod := BitVec.ofNat 9 (lmod s d), rdie := BitVec.ofNat 6 d, pending := 0,
      total := 1, quiet := 0 } 1

/-! Memory errors (R195, R198). -/

/-- Class, INSTANCE, accused kind and index of the memory at a die-local address (R195, R199, R475). -/
def memClass (l : Nat) : Nat × Nat × Nat × Nat :=
  match homeOf l with
  | some .hbm => (1, hbmCtl l, 5, hbmCtl l)
  | some (.stash c _) => (2, c, 3, c)
  | some (.core n _) => (3, n, 4, n)
  | _ => (7, 0, 1, 0)

/-- An uncorrectable error found by a read (R198). -/
def recordUE (s : State) (d : Nat) (addr : Word) (cls inst kind idx : Nat) : State :=
  let b := dieBlk d
  let s := bump s b CNT_UE 1
  let s := if rfb s b MEM_ERR_UE then setBit s b MEM_ERR_OVF
    else setBit (wf (wf (wf s b MEM_ERRADDR addr.toNat) b MEM_ERRINFO_CLASS cls) b MEM_ERRINFO_INSTANCE inst) b MEM_ERR_UE
  raiseNotice s d kind (lmod s d) d idx 2 (0x80 + cls)

/-- An uncorrectable error of storage that has no global address (classes 0x04-0x0A): MEM_ERRADDR takes a free word
(log 122). -/
def recordUnplaced (s : State) (d cls inst kind idx : Nat) : State :=
  let (w, s) := drawFree s
  recordUE s d w cls inst kind idx

/-- The correctable-error notice, once CNT_CE has risen by MEM_CETHRESH since the last (R198); it names the memory of the
last error. -/
def ceNotice (s : State) (d : Nat) : State :=
  let b := dieBlk d
  let th := rf s b MEM_CETHRESH_THRESH
  let n := rf s b CNT_CE
  let (cls, kind, idx) := (getDie s d).ceLast
  if th ≠ 0 && n - (getDie s d).ceBase ≥ th then
    raiseNotice (modDie s d fun x => { x with ceBase := n }) d kind (lmod s d) d idx 2 cls
  else s

/-- A correctable error found by a read (R198): counted, with a notice each MEM_CETHRESH errors. -/
def recordCE (s : State) (d cls kind idx : Nat) : State :=
  let b := dieBlk d
  let s := setBit (bump s b CNT_CE 1) b MEM_ERR_CE
  ceNotice (modDie s d fun x => { x with ceLast := (cls, kind, idx) }) d

/-! Storage inside a core (R195, classes 0x04-0x08), by key. -/

/-- Scalar register. -/
def unitX (i : Nat) : Nat := i

/-- Descriptor register. -/
def unitA (i : Nat) : Nat := 0x40 + i

/-- Semaphore. -/
def unitSem (k : Nat) : Nat := 0x80 + k

/-- Tile register. -/
def unitTile (t : Nat) : Nat := 0x100 + t

/-- Accumulator, by me × 8 + acc. -/
def unitAcc (k : Nat) : Nat := 0x140 + k

/-- Lane program slot. -/
def unitLps (k : Nat) : Nat := 0x180 + k

/-- SFE table bank: the active one of slot `k`, or its shadow. -/
def unitBank (k : Nat) (shadow : Bool) : Nat := 0x1A0 + 2 * k + (if shadow then 1 else 0)

/-- The instruction buffer. -/
def unitIbuf : Nat := 0x200

/-- Class code of a unit inside a core (R195). -/
def unitClass (u : Nat) : Nat :=
  if u < 0x100 then 7 else if u < 0x140 then 4 else if u < 0x180 then 5 else if u < 0x200 then 6 else 8

/-- The error that one read of a core's own storage finds (R195, R198): a corrected one is counted; of an uncorrectable
one it tells. -/
def coreEcc (s : State) (d n cls : Nat) (e : Ecc) : State × Bool :=
  match e with
  | .clean => (s, false)
  | .corrected => (recordCE s d cls 4 n, false)
  | .uncorrectable => (recordUnplaced s d cls n 4 n, true)

/-- A unit inside a core is written whole, or what was found there has been corrected: it is no longer disturbed (R198). -/
def mendUnit (s : State) (d n u : Nat) : State :=
  if (getCore s d n).upsets.any (fun p => p.1 == u) then
    modCore s d n fun c => { c with upsets := c.upsets.filter fun p => p.1 != u }
  else s

/-- Reads of units inside a core: the errors found are recorded, and whether one could not be corrected (R195, R198). -/
def readUnits (s : State) (d n : Nat) (us : List Nat) : State × Bool :=
  us.foldl (fun r u =>
    match tlookup (getCore r.1 d n).upsets u with
    | none => r
    | some e =>
      let (s, bad) := coreEcc r.1 d n (unitClass u) e
      (if bad then s else mendUnit s d n u, r.2 || bad)) (s, false)

/-- What the code finds in the first unit of a range at a read (R195, R198). -/
def eccEvent (s : State) (d l : Nat) (e : Ecc) : State :=
  let (cls, inst, kind, idx) := memClass l
  match e with
  | .clean => s
  | .corrected =>
    let s := if cls = 1 then bump s (hbmBlk d (hbmCtl l)) HBM_CNT_CE 1 else s
    recordCE s d cls kind idx
  | .uncorrectable =>
    let s := poisonUnit s d l
    let s := if cls = 1 then bump s (hbmBlk d (hbmCtl l)) HBM_CNT_UE 1 else s
    recordUE s d (globalAddr s d (unitOf l)) cls inst kind idx

/-- What a read of memory delivers. -/
inductive Rd where
  | bytes (bs : List Byte)
  /-- die-local address of the poisoned unit (R195) -/
  | poison (l : Nat)
  deriving DecidableEq, Repr

/-- The errors that a read of a range finds, unit by unit (R195, R198): a corrected unit is written back, one that
cannot be corrected is poisoned. -/
def findErrors (s : State) (d l len : Nat) : State :=
  (upsetsIn s d l len).foldl (fun s u =>
    if stackBad s d (u.1 - dieAddr d) then s
    else eccEvent { s with upsets := s.upsets.filter fun v => v.1 != u.1 } d (u.1 - dieAddr d) u.2) s

/-- First unit of a range that delivers no value: poisoned, or on a failed stack (R181, R195). -/
def firstPoison (s : State) (d l len : Nat) : Option Nat :=
  match deadIn s d l len, poisonIn s d l len with
  | some a, some u => some (min (unitOf a) u)
  | some a, none => some (unitOf a)
  | none, u => u

/-- A read performed at its home (R190, R195, R198): the errors that it finds are recorded, `e` being what disturbs its
first unit; a poisoned unit delivers no value; a failed stack reads as poison (R181). -/
def memRead (s : State) (d l len : Nat) (e : Ecc) : State × Rd :=
  let s := findErrors (disturb s d l e) d l len
  let hbm := l < 0x4800000000
  let s := if hbm then countGranules s d HBM_CNT_RD l len else s
  match firstPoison s d l len with
  | some u => (if hbm && !stackBad s d u then setBit s (hbmBlk d (hbmCtl u)) HBM_STATUS_POISON else s, .poison u)
  | none => (s, .bytes (peek s d l len))

/-- Whether every byte of a range delivers its value at the next read and no error is found (R181, R195). -/
def memSound (s : State) (d l len : Nat) : Bool := (firstPoison s d l len).isNone && (upsetsIn s d l len).isEmpty

/-! Traffic on the fabric (R180, R184, R200, R202). -/

/-- Cluster whose router a home lies behind (R81, R176, R180). -/
def homeCluster (l : Nat) : Option Nat :=
  match homeOf l with
  | some (.stash c _) => some c
  | some (.core n _) => some (n / 16)
  | _ => none

/-- Data that a cluster router sends out, 1,024 bytes a fabric cycle (R180, R200). -/
def countOut (s : State) (d c len : Nat) : State := bump s (clBlk d c) CL_RT_CNT_OUT (ceilDiv len 1024)

/-- What a request from die `d`, cluster `c` (none: no cluster's unit), and its response move over the fabric to a home on
die `t` and back (R180, R184, R200, R202): a write carries its data there and its acknowledgement back, a read its header
there and its data back; a die below Run is woken by it (R420). -/
def carry (s : State) (d : Nat) (c : Option Nat) (t l len : Nat) (write : Bool) : State :=
  let s := meshWake s d t
  let s := countHops (countHops s d t (if write then len else 0)) t d (if write then 0 else len)
  let h := homeCluster l
  if d = t && h.isSome && h == c then s
  else match write, c, h with
    | true, some k, _ => countOut s d k len
    | false, _, some k => countOut s t k len
    | _, _, _ => s

/-- Whether a request to a home on die `t` comes back with poison before it is performed: its route crosses a down edge
(R186), or a write names a failed stack (R181). -/
def writeLost (s : State) (d t l len : Nat) : Bool := routeDown s d t || (deadIn s t l len).isSome

/-! The check of a request by the cluster router (R175, R193, R194). -/

/-- Where a request goes. -/
inductive Target where
  | here (d l : Nat)
  | away (m d l : Nat)
  /-- first address refused -/
  | unmapped (a : Word)
  | fenced
  deriving DecidableEq, Repr

/-- Bit `m` of FENCE_MOD and bit `t` of FENCE_DIES of die `d` (R193). -/
def fencePermits (s : State) (d m t : Nat) : Bool :=
  (regWord s (dieBlk d + 0x30 + m / 64 * 8)).getLsbD (m % 64) && (regWord s (dieBlk d + 0x28)).getLsbD t

/-- Whether a range of `len` bytes at offset `o` lies between two offsets. -/
def within (lo hi o len : Nat) : Bool := decide (lo ≤ o) && decide (o + len ≤ hi)

/-- The region table of R193: whether a core (with its index) or another unit of cluster `c` may reach a range of a die;
every register of the range must be one that the table permits. -/
def fenceRegion (d t c : Nat) (core : Option Nat) (write : Bool) (l len : Nat) : Bool :=
  match homeOf l with
  | some (.reg o) =>
    match core with
    | none => false
    | some n =>
      d == t && (within (0x200000 + n * 0x2000) (0x200000 + n * 0x2000 + 0x2000) o len
        || within (0x100000 + c * 0x10000) (0x100000 + c * 0x10000 + 0x1000) o len
        || within (0x105000 + c * 0x10000) (0x106000 + c * 0x10000) o len
        || (!write && within 0 0x20 o len))
  | some _ => true
  | none => false

/-- Whether a request of a core stays in the core's own slot, whose banks serve it without the router (R81). -/
def ownSlot (d t : Nat) (core : Option Nat) (l : Nat) : Bool :=
  match homeOf l, core with
  | some (.core k _), some n => d == t && k == n
  | _, _ => false

/-- The check of one request under the fence that `permits` gives: mapped first, then fenced (R174, R175, R193, R335,
R477; log 28). -/
def checkTargetF (permits : Nat → Nat → Bool) (s : State) (d c : Nat) (core : Option Nat) (write : Bool) (a : Word)
    (len : Nat) : Target :=
  let m := addrMod a
  let t := addrDie a
  let l := addrLocal a
  let own := !noLmod s d && m == lmod s d
  if !dieOk s t then .unmapped a
  else match firstBad l len with
    | some b => .unmapped (a - BitVec.ofNat 64 l + BitVec.ofNat 64 b)
    | none =>
      if !own && (routeRow s d m).isNone then .unmapped a
      else if (own && ownSlot d t core l)
          || (permits m t && fenceRegion (if own then d else 64) t c core write l len) then
        (if own then .here t l else .away m t l)
      else .fenced

/-- The check of one request of a program by the fence of its die. -/
def checkTarget (s : State) (d c : Nat) (core : Option Nat) (write : Bool) (a : Word) (len : Nat) : Target :=
  checkTargetF (fencePermits s d) s d c core write a len

/-! Core faults (R89, R90) and signals (R71). -/

/-- CORE_STATUS.STATE (R95). -/
def coreState (s : State) (d n : Nat) : Nat := rf s (coreBlk d n) CORE_STATUS_STATE

/-- STATE written. -/
def setCoreState (s : State) (d n v : Nat) : State := wf s (coreBlk d n) CORE_STATUS_STATE v

/-- State numbers (R95). -/
def stIDLE : Nat := 0
/-- R95. -/
def stRUN : Nat := 1
/-- R95. -/
def stWAIT : Nat := 2
/-- R95. -/
def stHOLD : Nat := 3
/-- R95. -/
def stDONE : Nat := 4
/-- R95. -/
def stFAULTED : Nat := 5

/-- Fault codes (R89). -/
def fcILL : Nat := 0x01
/-- R89. -/
def fcABSENT : Nat := 0x02
/-- R89. -/
def fcDESC : Nat := 0x03
/-- R89. -/
def fcADDR : Nat := 0x04
/-- R89. -/
def fcALIGN : Nat := 0x05
/-- R89. -/
def fcSEM : Nat := 0x06
/-- R89. -/
def fcLOOP : Nat := 0x07
/-- R89. -/
def fcCALL : Nat := 0x08
/-- R89. -/
def fcBAR : Nat := 0x09
/-- R89. -/
def fcWDOG : Nat := 0x0A
/-- R89. -/
def fcMEM : Nat := 0x0B
/-- R89. -/
def fcTRAP : Nat := 0x0C

/-- Source unit numbers that the model puts into SUNIT (R325: opaque to the path; log 23): a core's loads. -/
def unitCore (n : Nat) : Nat := n

/-- A core's stores. -/
def unitStore (n : Nat) : Nat := 0x100 + n

/-- Global address of an offset in a core's memory slot (R81). -/
def slotAddr (s : State) (d n off : Nat) : Word := globalAddr s d (coreMemBase + n * 0x200000 + off)

/-- An engine queue as its core faults (R89): the instruction whose finished tile found its conveyor full executes to its
end, its tile discarded (`tile`); instructions that no engine has started are discarded. -/
def queueFaulted (tile : Bool) : List EngOp → List EngOp
  | [] => []
  | e :: q =>
    if e.done then e :: queueFaulted tile q
    else if tile then { e with done := true } :: queueFaulted false q
    else if e.begun then e :: queueFaulted false q
    else queueFaulted false q

/-- What a core loses as it faults (R89): queued instructions that no engine has started, conveyors, held tiles, the
held issue. -/
def CoreSt.faulted (c : CoreSt) : CoreSt :=
  { c with
    conv := [], held := [], hold := none
    eng := c.eng.map fun p => (p.1, queueFaulted (tget none c.held p.1).isSome p.2) }

/-- A core fault: the first is recorded, the core enters FAULTED and the host gets a notice (R89, R90). -/
def coreFault (s : State) (d n src code : Nat) (fpc faddr : Word) : State :=
  if coreState s d n = stFAULTED then s
  else
    let b := coreBlk d n
    let s := setReg s (b + 0x20) (BitVec.ofNat 64 (src * 32 + code))
    let s := setReg s (b + 0x28) fpc
    let s := setReg s (b + 0x30) faddr
    let s := setCoreState s d n stFAULTED
    let s := modCore s d n CoreSt.faulted
    raiseNotice s d 4 (lmod s d) d n 1 code

/-- Value of a semaphore (R71). -/
def semVal (s : State) (d n k : Nat) : Nat := rf s (coreBlk d n + 8 * k) SEM_VALUE

/-- A semaphore's value set. -/
def setSem (s : State) (d n k v : Nat) : State := wf (mendUnit s d n (unitSem k)) (coreBlk d n + 8 * k) SEM_VALUE v

/-- A signal (R71, R90): the count is added; above 65,535 the value stays there and the core faults. -/
def semSignal (s : State) (d n k count src : Nat) (fpc : Word) : State :=
  let v := semVal s d n k + count
  if v > 65535 then coreFault (setSem s d n k 65535) d n src fcSEM fpc 0
  else setSem s d n k v

/-- Completion of an instruction with its SEN and SSEM (R66). -/
def complete (s : State) (d n : Nat) (sen : Bool) (ssem src : Nat) (fpc : Word) : State :=
  if sen then semSignal s d n ssem 1 src fpc else s

/-- A refused request counts at the router of its cluster (R194). -/
def countFence (s : State) (d c : Nat) : State := bump s (clBlk d c) CL_RT_CNT_FENCE 1

/-- Flags set in the status register of a block. -/
def setFlags (s : State) (b off : Nat) (f : Flags) : State := setReg s (b + off) (f.into (regWord s (b + off)))

/-! Requests to other modules by the units of a die (R209, R326). -/

/-- The answers to `n` packets with consecutive TAGs from `tag`, all arrived: their statuses and data in order. -/
def answersOf (s : State) (d unit tag n : Nat) : Option (List (Nat × List Byte)) :=
  let l := (List.range n).map fun i =>
    s.arrived.find? fun a => a.1 == d && a.2.1 == unit && a.2.2.1 == (tag + i) % 2 ^ 32
  if l.all (·.isSome) then some (l.filterMap fun a => a.map fun a => (a.2.2.2.1, a.2.2.2.2)) else none

/-- Those answers taken away. -/
def dropAnswers (s : State) (d unit tag n : Nat) : State :=
  { s with arrived := s.arrived.filter fun a =>
      !(a.1 == d && a.2.1 == unit && (List.range n).any fun i => a.2.2.1 == (tag + i) % 2 ^ 32) }

/-- Unit number of a compressor in SUNIT (log 23). -/
def unitGc (c : Nat) : Nat := 0x2000 + c

/-- Unit number of a reduction unit (log 23). -/
def unitRed : Nat := 0x3001

/-- Whether a unit has requests out that another module has not answered. -/
def unitWaits (s : State) (d sunit : Nat) : Bool :=
  s.asked.any fun q => q.die == d && q.sunit == sunit && (answersOf s d sunit q.tag q.n).isNone

/-! Reading a register with its derived fields. -/

/-- Whether the part has gradient compressors (R3). -/
def hasGc (s : State) : Bool := s.secure.variant.gcmp

/-- Whether a die holds a prefix lookup unit (R12). -/
def hasPlu (s : State) (d : Nat) : Bool := s.secure.variant.plu && d % 6 == 0

/-- Occupancy of a conveyor (R93). -/
def convOcc (s : State) (d n k : Nat) : Nat := (tget [] (getCore s d n).conv k).length

/-- Whether a channel does anything: STATE is not IDLE (R221). -/
def chanState (s : State) (d c k : Nat) : Nat := rf s (chBlk d c k) CH_STATUS_STATE

/-- Queue entries in use: a descriptor that came from the queue keeps its entry until its last burst is granted
(R204, log 22). -/
def chanDepth (c : ChanSt) : Nat :=
  c.queue.length + (match c.head with
    | some h => if h.byChain then 0 else 1
    | none => 0)

/-- A register as it reads, with the fields that show other state (R93, R95, R118, R173, R177, R200, R221, R222, R250,
R310). -/
def regRead (s : State) (a : Nat) : Word :=
  let w := regWord s a
  match locate a with
  | none => 0
  | some p =>
    match p.blk with
    | .core =>
      let c := getCore s p.die p.i
      if p.off = 0 then
        BitVec.ofNat 64 (tget (p.i % 16) s.secure.coreMap (p.die * 256 + p.i) * 65536 + p.die * 256 + p.i)
      else if p.off = 0x10 then fset (fset w CORE_STATUS_LOOPD c.loops.length) CORE_STATUS_CALLD c.rets.length
      else if p.off = 0x58 then
        BitVec.ofNat 64 (convOcc s p.die p.i 0 + 256 * convOcc s p.die p.i 1 + 65536 * convOcc s p.die p.i 2
          + 16777216 * convOcc s p.die p.i 3)
      else if p.off = 0x68 then
        BitVec.ofNat 64 ((List.range 6).foldl (fun v k =>
          v + (if (tget [] c.eng k).isEmpty then 0 else 2 ^ k)) 0)
      else w
    | .hbm =>
      if p.off = 0x10 && (getHbm s p.die p.i).copying.isSome then
        BitVec.ofNat 64 (Config.sparePos p.die p.i s.fresh % 9437185)
      else w
    | .me => if p.off = 8 then BitVec.ofNat 64 (tget 32 s.secure.colMap ((p.die * 256 + p.i) * 4 + p.j)) else w
    | .sfe => if p.off = 0x10 then BitVec.ofNat 64 (256 * s.secure.variant.algrev.toNat) else w
    | .cl => if p.off = 0 then BitVec.ofNat 64 p.i else w
    | .dma =>
      if p.off = 0 then
        BitVec.ofNat 64 ((List.range 32).foldl (fun v k =>
          v + (if chanState s p.die p.i k = 0 then 0 else 2 ^ k)) 0)
      else w
    | .ch =>
      if p.off = 8 then
        fset w CH_STATUS_QDEPTH (chanDepth (getChan s p.die p.i p.j))
      else w
    | .gc =>
      if !hasGc s then 0
      else if p.off = 0 then
        fset w GC_STATUS_BUSY (b2n ((getGc s p.die p.i).length != 0 || unitWaits s p.die (unitGc p.i)))
      else w
    | .red =>
      if p.off = 0 then fset w RED_STATUS_BUSY (b2n (unitWaits s p.die unitRed || (getRed s p.die).wait.length != 0))
      else w
    | .link =>
      if 0x100 ≤ p.off && p.off < 0x138 then
        BitVec.ofNat 64 ((Config.laneSense p.die ((p.off - 0x100) / 8) s.fresh).toNat % 2 ^ 48)
      else w
    | .plu =>
      if !hasPlu s p.die then 0
      else if p.off = 0 then
        let u := getPlu s p.die
        fset (fset w PLU_STATUS_QDEPTH u.queue.length) PLU_STATUS_BUSY (b2n (u.queue.length != 0 || u.finished.isSome))
      else w
    | _ => w

/-- Bytes of the register region, 8-byte register by register. -/
def regBytes (s : State) (a : Nat) (len : Nat) : List Byte :=
  slice (((List.range (len / 8 + 2)).map fun i => wordBytes (regRead s (a / 8 * 8 + 8 * i))).flatten) (a % 8) len

/-- A read of any home: registers or memory. -/
def homeRead (s : State) (d l len : Nat) (e : Ecc) : State × Rd :=
  match homeOf l with
  | some (.reg _) => (s, .bytes (regBytes s (dieAddr d + l) len))
  | _ => memRead s d l len e

end Sys2Proof.Machine
end

