-- ==== Sys2Proof/Machine/Operands.lean ====
section
/-! DEFINITION. Operand forms: address descriptors (R68-R70), views in core memory, block scales (R47-R50), source
specifiers and broadcasts (R125-R127), and the rounding keys of a destination (R51-R53). -/

namespace Sys2Proof.Machine

/-! Address descriptors. -/

/-- Block size B of a code (R47). -/
def blkSize (b : BitVec 2) : Nat := 16 * 2 ^ b.toNat

/-- The descriptor that 64 bytes spell (R68). -/
def descOf (bs : List Byte) : Desc :=
  let w := leAt bs 48 8
  { base := leWord (slice bs 0 8), sbase := leWord (slice bs 8 8), rows := BitVec.ofNat 32 (leAt bs 16 4),
    cols := BitVec.ofNat 32 (leAt bs 20 4), rstride := BitVec.ofNat 32 (leAt bs 24 4),
    srstride := BitVec.ofNat 32 (leAt bs 28 4), tid := BitVec.ofNat 32 (leAt bs 32 4),
    irow := BitVec.ofNat 32 (leAt bs 36 4), ibase := BitVec.ofNat 50 (leAt bs 40 8), fmt := BitVec.ofNat 4 w,
    bsz := BitVec.ofNat 2 (w / 16), scaled := bits w 6 6 == 1 }

/-- Byte 48 of a descriptor: FMT, BSZ, SCALED (R68). -/
def descByte48 (d : Desc) : Nat := d.fmt.toNat + 16 * d.bsz.toNat + 64 * b2n d.scaled

/-- The 64 bytes of a descriptor; reserved bits are 0 (R11, R68). -/
def descBytes (d : Desc) : List Byte :=
  leBytes 8 d.base.toNat ++ leBytes 8 d.sbase.toNat ++ leBytes 4 d.rows.toNat ++ leBytes 4 d.cols.toNat
    ++ leBytes 4 d.rstride.toNat ++ leBytes 4 d.srstride.toNat ++ leBytes 4 d.tid.toNat ++ leBytes 4 d.irow.toNat
    ++ leBytes 8 d.ibase.toNat ++ leBytes 8 (descByte48 d) ++ leBytes 8 0

/-- Bytes of `n` elements of a format from an even element on (R70, z = 1/2 for E2M1). -/
def elemBytes (f : BitVec 4) (n : Nat) : Nat := ceilDiv (n * fmtBits f) 8

/-- Size that BASE and RSTRIDE are multiples of (R69). -/
def baseAlign (f : BitVec 4) : Nat := if f = fU32 then 4 else if fmtBits f = 16 then 2 else 1

/-- The conditions of R69.  `write`: the instruction writes through it; `place`: BASE, SBASE and RSTRIDE are used
(R103 lifts their conditions for a conveyor output). -/
def descOk (write place : Bool) (d : Desc) : Bool :=
  fmtDefined d.fmt
    && (if d.fmt = fE2M1 then d.scaled else if d.scaled then d.fmt == fE4M3 || d.fmt == fE5M2 else true)
    && (!place || (d.base.toNat % baseAlign d.fmt == 0 && d.rstride.toNat % baseAlign d.fmt == 0))
    && d.rows.toNat ≥ 1 && d.cols.toNat ≥ 1 && d.irow.toNat ≥ 1
    && (d.rows.toNat ≤ 1 || d.cols.toNat ≤ d.irow.toNat)
    && (!place || d.rows.toNat ≤ 1 || d.rstride = 0 || elemBytes d.fmt d.cols.toNat ≤ d.rstride.toNat)
    && (!place || d.rows.toNat ≤ 1 || d.rstride ≠ 0 || !write)
    && decide (d.ibase.toNat + (d.rows.toNat - 1) * d.irow.toNat + d.cols.toNat - 1 < 2 ^ 50)
    && (!d.scaled || d.ibase.toNat % d.irow.toNat % blkSize d.bsz == 0)

/-- Elements of a view. -/
def viewCount (d : Desc) : Nat := d.rows.toNat * d.cols.toNat

/-- Whether every block of a block-scaled view lies wholly within it (R140). -/
def blocksWhole (d : Desc) : Bool :=
  !d.scaled || d.cols.toNat % blkSize d.bsz == 0 || d.ibase.toNat % d.irow.toNat + d.cols.toNat == d.irow.toNat

/-- Address of a view element, exact (R70). -/
def elemAddr (d : Desc) (r c : Nat) : Nat := d.base.toNat + r * d.rstride.toNat + c * fmtBits d.fmt / 8

/-- Address of the scale of a view element, exact (R70). -/
def scaleAddr (d : Desc) (r c : Nat) : Nat := d.sbase.toNat + r * d.srstride.toNat + c / blkSize d.bsz

/-- Logical index of a view element (R51, R70). -/
def elemIndex (d : Desc) (r c : Nat) : Nat := d.ibase.toNat + r * d.irow.toNat + c

/-- First address of a range that lies outside a core's own slot (R81, R102). -/
def outsideSlot (s : State) (dn n a len : Nat) : Option Nat :=
  let lo := (slotAddr s dn n 0).toNat
  if noLmod s dn then some a
  else if a < lo || lo + 0x180000 ≤ a then some a
  else if lo + 0x180000 < a + len then some (lo + 0x180000)
  else none

/-- First address of a view, its rows in order and each row's scales after its elements, outside the core's own slot. -/
def viewOutside (s : State) (dn n : Nat) (d : Desc) : Option Word :=
  ((List.range d.rows.toNat).findSome? fun r =>
    (outsideSlot s dn n (elemAddr d r 0) (elemBytes d.fmt d.cols.toNat)) <|>
    (if d.scaled then outsideSlot s dn n (scaleAddr d r 0) (ceilDiv d.cols.toNat (blkSize d.bsz)) else none)).map
      (BitVec.ofNat 64)

/-- Die-local address of a global address. -/
def localOf (a : Nat) : Nat := a % 2 ^ 49

/-- The errors that reading a view finds in core memory (R195, R198). -/
def viewErrors (s : State) (dn : Nat) (d : Desc) : State :=
  if s.upsets.isEmpty then s
  else (List.range d.rows.toNat).foldl (fun s r =>
    let s := findErrors s dn (localOf (elemAddr d r 0)) (elemBytes d.fmt d.cols.toNat)
    if d.scaled then findErrors s dn (localOf (scaleAddr d r 0)) (ceilDiv d.cols.toNat (blkSize d.bsz)) else s) s

/-- First poisoned unit that a view touches, as a global address (R89, R195). -/
def viewPoison (s : State) (dn : Nat) (d : Desc) : Option Word :=
  ((List.range d.rows.toNat).findSome? fun r =>
    (poisonIn s dn (localOf (elemAddr d r 0)) (elemBytes d.fmt d.cols.toNat)) <|>
    (if d.scaled then poisonIn s dn (localOf (scaleAddr d r 0)) (ceilDiv d.cols.toNat (blkSize d.bsz)) else none)).map
      (globalAddr s dn)

/-- Code of a view element as stored (R47, R70). -/
def elemCode (s : State) (dn : Nat) (d : Desc) (r c : Nat) : Nat :=
  let l := localOf (elemAddr d r c)
  if d.fmt = fE2M1 then bits (leNat (peek s dn l 1)) (4 * (c % 2) + 3) (4 * (c % 2))
  else leNat (peek s dn l (fmtBits d.fmt / 8))

/-- Value of a view element (R50, R119). -/
def elemNum (s : State) (dn : Nat) (d : Desc) (r c : Nat) : Num :=
  let code := elemCode s dn d r c
  if d.scaled then scaledDecode d.fmt code (leNat (peek s dn (localOf (scaleAddr d r c)) 1)) else fmtDecode d.fmt code

/-- Element `k` of a view (R127). -/
def viewNum (s : State) (dn : Nat) (d : Desc) (k : Nat) : Num := elemNum s dn d (k / d.cols.toNat) (k % d.cols.toNat)

/-- Code of element `k` of a view. -/
def viewCode (s : State) (dn : Nat) (d : Desc) (k : Nat) : Nat := elemCode s dn d (k / d.cols.toNat) (k % d.cols.toNat)

/-- Bytes of consecutive codes of a format; E2M1 packs two to a byte, the first low (R47). -/
def packCodes (f : BitVec 4) (cs : List Nat) : List Byte :=
  if f = fE2M1 then (chunks 2 cs.length cs).map fun p => BitVec.ofNat 8 (p.getD 0 0 + 16 * p.getD 1 0)
  else (cs.map fun c => leBytes (fmtBits f / 8) c).flatten

/-- Consecutive codes of one view row written from column `c` on; a nibble beside them keeps its value. -/
def writeRun (s : State) (dn : Nat) (d : Desc) (r c : Nat) (cs : List Nat) : State :=
  if cs = [] then s
  else if d.fmt = fE2M1 then
    let first := if c % 2 = 1 then [elemCode s dn d r (c - 1)] else []
    let last := if (c + cs.length) % 2 = 1 then [elemCode s dn d r (c + cs.length)] else []
    poke s dn (localOf (elemAddr d r c)) (packCodes d.fmt (first ++ cs ++ last))
  else poke s dn (localOf (elemAddr d r c)) (packCodes d.fmt cs)

/-- Codes written to elements `k`, `k + 1`, … of a view, row by row (R127); `fuel` bounds the rows. -/
def writeCodes (s : State) (dn : Nat) (d : Desc) : Nat → Nat → List Nat → State
  | 0, _, _ => s
  | fuel + 1, k, cs =>
    if cs = [] then s
    else
      let r := k / d.cols.toNat
      let c := k % d.cols.toNat
      let m := min cs.length (d.cols.toNat - c)
      writeCodes (writeRun s dn d r c (cs.take m)) dn d fuel (k + m) (cs.drop m)

/-! Rounding a destination. -/

/-- Job key K and step number of a core (R53). -/
def keyStep (s : State) (dn n : Nat) : Word × Word :=
  (regWord s (dieBlk dn + 0x20), regWord s (coreBlk dn n + 0x50))

/-- Random bits for the element at a view position, with mode RND (R52, R139); none in RN. -/
def elemSr (kt : Word) (sr : Bool) (d : Desc) (r c : Nat) : Option Nat :=
  if sr then some (srBits kt (elemIndex d r c)) else none

/-- k_tensor of an instruction that writes through a descriptor (R53). -/
def keyFor (s : State) (dn n : Nat) (tid : BitVec 32) (site : BitVec 16) : Word :=
  let (k, st) := keyStep s dn n
  kTensor k st tid site

/-- Numbers rounded for one row of a view from column 0: blocks of scales and codes (R47-R49), or codes alone. -/
def rowEncode (d : Desc) (kt : Word) (sr : Bool) (r : Nat) (xs : List Num) : List Nat × List Nat × Flags :=
  let srs := (List.range xs.length).map fun c => elemSr kt sr d r c
  if d.scaled then
    let b := blkSize d.bsz
    let bl := ((chunks b xs.length xs).zip (chunks b srs.length srs)).map fun p => blockEncode d.fmt p.1 p.2
    (bl.map (·.1), (bl.map (·.2.1)).flatten, Flags.all (bl.map (·.2.2)))
  else
    let cs := (xs.zip srs).map fun p => fmtEncode d.fmt p.2 p.1
    ([], cs.map (·.1), Flags.all (cs.map (·.2)))

/-- One whole row of a view written (R70, R139, R140). -/
def writeRow (s : State) (dn : Nat) (d : Desc) (kt : Word) (sr : Bool) (r : Nat) (xs : List Num) : State × Flags :=
  let (sc, cs, f) := rowEncode d kt sr r xs
  let s := writeRun s dn d r 0 cs
  (if d.scaled then poke s dn (localOf (scaleAddr d r 0)) (sc.map (BitVec.ofNat 8)) else s, f)

/-- All rows of a view written, from row `r` on. -/
def writeRows (s : State) (dn : Nat) (d : Desc) (kt : Word) (sr : Bool) : Nat → List (List Num) → Flags → State × Flags
  | _, [], f => (s, f)
  | r, xs :: rest, f =>
    let (s, g) := writeRow s dn d kt sr r xs
    writeRows s dn d kt sr (r + 1) rest (f.or g)

/-- Numbers written to elements `k`, `k + 1`, … of a view that is not block-scaled, each rounded once (R139). -/
def writeNums (s : State) (dn : Nat) (d : Desc) (kt : Word) (sr : Bool) (k : Nat) (xs : List Num) : State × Flags :=
  let cs := (List.range xs.length).zip xs |>.map fun p =>
    let e := k + p.1
    fmtEncode d.fmt (elemSr kt sr d (e / d.cols.toNat) (e % d.cols.toNat)) p.2
  (writeCodes s dn d (xs.length + 1) k (cs.map (·.1)), Flags.all (cs.map (·.2)))

/-! Tile registers and sources (R121, R125-R127). -/

/-- Codes of a tile register, 1,024 of them (R121). -/
def tileCodes (c : CoreSt) (t : Nat) : List Code := (tget [] c.tiles t)

/-- Element `k` of the tile registers from t`num` on (R127). -/
def tileCode (c : CoreSt) (num k : Nat) : Nat := ((tileCodes c (num + k / 1024)).getD (k % 1024) 0).toNat

/-- The list with positions `p`, `p + 1`, … replaced; a list that is short is filled with 0 to 1,024. -/
def putCodes (old : List Code) (p : Nat) (cs : List Nat) : List Code :=
  let full := old ++ List.replicate (1024 - old.length) 0
  full.take p ++ cs.map (BitVec.ofNat 16) ++ full.drop (p + cs.length)

/-- Codes written to elements `k`, `k + 1`, … of the tile registers from t`num` on; `fuel` bounds the tiles. -/
def putTile (num : Nat) : Nat → CoreSt → Nat → List Nat → CoreSt
  | 0, c, _, _ => c
  | fuel + 1, c, k, cs =>
    if cs = [] then c
    else
      let t := num + k / 1024
      let m := min cs.length (1024 - k % 1024)
      putTile num fuel
        { c with
          tiles := tset c.tiles t (putCodes (tileCodes c t) (k % 1024) (cs.take m))
          upsets := if m = 1024 then c.upsets.filter fun p => p.1 != unitTile t else c.upsets }
        (k + m) (cs.drop m)

/-- Element that a source supplies for element `e` (R126). -/
def bcast (bc : BitVec 2) (e : Nat) : Nat :=
  if bc = 0 then e else if bc = 1 then e % 32 else if bc = 2 then e / 32 else 0

/-- Elements that a source needs (R126). -/
def bcastCount (bc : BitVec 2) (ec : Nat) : Nat :=
  if bc = 0 then ec else if bc = 1 then 32 else if bc = 2 then ceilDiv ec 32 else 1

/-- Value of element `p` of a conveyor tile (R113, R131): positions outside M × N read +0. -/
def tileNum (t : Tile) (p : Nat) : Num :=
  let i := p / 32
  let j := p % 32
  if t.m ≤ i || t.n ≤ j then Num.zero false
  else
    let c := (t.elems.getD p 0).toNat
    if t.scaled then scaledDecode t.fmt c (t.scales.getD (2 * i + j / blkSize t.bsz) 0).toNat else fmtDecode t.fmt c

end Sys2Proof.Machine
end

