-- ==== Sys2Proof/Machine/CoreRegs.lean ====
section
/-! DEFINITION. Core reset and start (R94, R96), the triggers of a core's register slot and of the cluster control block
(R94, R118, R147, R173, R273, R277), and the local register window (R178). -/

namespace Sys2Proof.Machine

/-- TAGs of a core's requests to other modules that have no answer yet (R96). -/
def coreOutstanding (s : State) (d n : Nat) : List Nat :=
  let c := getCore s d n
  (c.orphans ++ c.loadTag.toList ++ (c.stores.filter fun o => !o.done).map (·.tag)).filter fun t =>
    !(s.arrived.any fun a => a.1 == d && (a.2.1 == unitCore n || a.2.1 == unitStore n) && a.2.2.1 == t)

/-- Core reset (R96, R67, R106, R121, R132, R162, R285): what it clears; core memory, CORE_PC and the counters stay. -/
def coreReset (s : State) (d n : Nat) : State :=
  let b := coreBlk d n
  let out := coreOutstanding s d n
  let s := { s with arrived := s.arrived.filter fun a =>
    !(a.1 == d && (a.2.1 == unitCore n || a.2.1 == unitStore n)) }
  let s := setCore s d n { CoreSt.reset with orphans := out }
  let s := clearRegs s b (offsets 0x200 0x3F8)
  let s := setReg s (b + 0x20) 0
  let s := setReg s (sfeBlk d n + 0x18) 0
  let s := modDie s d fun x => { x with arrived := x.arrived.map fun p => (p.1, p.2.filter (fun k => k.val != n)) }
  if out = [] then setCoreState s d n stIDLE else s

/-- CORE_CTRL.RUN (R94, R285): issue starts at CORE_PC in IDLE or DONE; in other states it is ignored. -/
def coreRun (s : State) (d n : Nat) : State :=
  if coreState s d n = stIDLE || coreState s d n = stDONE then
    setCoreState (modCore s d n fun c => { c with hold := none, acct := 0, reason := 0 }) d n stRUN
  else s

/-- CORE_CTRL.RESET and RUN in one write (R94): the core starts as soon as STATE is IDLE. -/
def coreRestart (s : State) (d n : Nat) : State :=
  let s := coreReset s d n
  if (getCore s d n).orphans = [] then coreRun s d n else modCore s d n fun c => { c with startAfter := true }

/-- The answer to a request that a core sent before its reset (R96): with the last of them STATE reads IDLE. -/
def coreAck (s : State) (d n tag : Nat) : State :=
  let c := getCore s d n
  let left := c.orphans.filter (· ≠ tag)
  let s := setCore s d n { c with orphans := left, startAfter := c.startAfter && left != [] }
  if left = [] then
    let s := setCoreState s d n stIDLE
    if c.startAfter then coreRun s d n else s
  else s

/-- CORE_CTRL.CLRCNT (R94). -/
def coreClear (s : State) (d n : Nat) : State := clearRegs s (coreBlk d n) (offsets 0x400 0x428)

/-- USED for values of HEAD and TAIL (R273). -/
def scUsed (h t : Nat) : Nat := (t % 2 ^ 24 + 2 ^ 24 - h % 2 ^ 24) % 2 ^ 24

/-- HEAD and TAIL as a write would leave them: refused when USED would exceed 2^23, which sets OVER (R273, R277). -/
def scMove (s : State) (d c h t : Nat) : State :=
  let b := clBlk d c
  if scUsed h t > 2 ^ 23 then setBit s b SC_STATUS_OVER
  else
    let s := wf (wf s b SC_HEAD_HEAD h) b SC_TAIL_TAIL t
    let s := wf s b SC_STATUS_USED (scUsed h t)
    if rf s b SC_HWM_HWM < scUsed h t then wf s b SC_HWM_HWM (scUsed h t) else s

/-- A write to SC_HEAD. -/
def scHead (s : State) (d c : Nat) (v : Word) : State := scMove s d c (fget v SC_HEAD_HEAD) (rf s (clBlk d c) SC_TAIL_TAIL)

/-- A write to SC_TAIL. -/
def scTail (s : State) (d c : Nat) (v : Word) : State := scMove s d c (rf s (clBlk d c) SC_HEAD_HEAD) (fget v SC_TAIL_TAIL)

/-- A write to SC_EVENT (R277). -/
def scEvent (s : State) (d c : Nat) (v : Word) : State :=
  let k := fget v SC_EVENT_CODE
  if k = 1 then bump s (clBlk d c) SC_CNT_SPILLENT 1 else if k = 2 then bump s (clBlk d c) SC_CNT_RECOMP 1 else s

/-- SC_CTRL.CLRCNT (R277): SC_HWM and the counters at 0x130-0x188. -/
def scClear (s : State) (d c : Nat) : State :=
  clearRegs s (clBlk d c) (0x120 :: offsets 0x130 0x188)

/-- Whether a field value is a reserved encoding, which a write leaves unchanged (R11, R199, R311, R344). -/
def reservedValue (b : Blk) (f : Fld) (v : Nat) : Bool :=
  match b with
  | .die => f == SCRUB_CTRL_HOURS && !(decide (1 ≤ v) && decide (v ≤ 168))
  | .red => f == RED_POLL_US && v == 0
  | .link => (f == LK_CRIER_HOLD || f == LK_CRIER_FLUSH) && v == 0
  | _ => false

/-- A write by the access codes (R10), reserved encodings leaving their field unchanged (R11). -/
def accessWrite (s : State) (a : Nat) (v : Word) : State :=
  match locate a with
  | none => s
  | some p =>
    let rows := (regRows p).filter fun r => !(r.acc = .rw && reservedValue p.blk r.fld (fget v r.fld))
    if rows.all (fun r => r.acc = .ro || r.acc = .rc) then s
    else
      let w := regWord s a
      setReg s a (writeByAccess rows w v)

/-- Whether some core of a cluster is in RUN or WAIT (R200). -/
def clusterBusy (s : State) (d c : Nat) : Bool :=
  (List.range 16).any fun k => coreState s d (c * 16 + k) = stRUN || coreState s d (c * 16 + k) = stWAIT

/-- A write of a register of a core's slot or of its cluster's control block, with the actions that it triggers. -/
def slotWrite (s : State) (a : Nat) (v : Word) : State :=
  let a := a / 8 * 8
  match locate a with
  | none => s
  | some p =>
    match p.blk with
    | .core =>
      if p.off = 0x08 then
        let s := if fget v CORE_CTRL_CLRCNT = 1 then coreClear s p.die p.i else s
        if fget v CORE_CTRL_RESET = 1 then
          (if fget v CORE_CTRL_RUN = 1 then coreRestart s p.die p.i else coreReset s p.die p.i)
        else if fget v CORE_CTRL_RUN = 1 then coreRun s p.die p.i else s
      else if p.off = 0x18 then
        (if coreState s p.die p.i = stIDLE || coreState s p.die p.i = stDONE then
          wf s (coreBlk p.die p.i) CORE_PC_PC (fget v CORE_PC_PC) else s)
      else accessWrite s a v
    | .me => if p.off = 0x10 then (if v.getLsbD 0 then clearRegs s (meBlk p.die p.i p.j) (offsets 0x18 0x28) else s)
             else accessWrite s a v
    | .ve =>
      let s := if p.off = 8 && fget v VE_CTRL_CLRCNT = 1 then clearRegs s (veBlk p.die p.i) (offsets 0x10 0x20) else s
      accessWrite s a v
    | .sfe =>
      let s := if p.off = 8 && fget v SFE_CTRL_CLRCNT = 1 then clearRegs s (sfeBlk p.die p.i) (offsets 0x20 0x30) else s
      accessWrite s a v
    | .cl =>
      if p.off = 0x100 then (if v.getLsbD 0 then scClear s p.die p.i else s)
      else if p.off = 0x108 then scHead s p.die p.i v
      else if p.off = 0x110 then scTail s p.die p.i v
      else if p.off = 0x128 then scEvent s p.die p.i v
      else if 8 ≤ p.off && p.off < 0x48 && clusterBusy s p.die p.i then s
      else accessWrite s a v
    | _ => s

/-- The register that an offset of the local register window reaches (R178); none at a reserved offset. -/
def windowReg (d n o : Nat) : Option Nat :=
  let o := o / 8 * 8
  if o < 0x800 then some (coreBlk d n + o)
  else if o < 0xC00 then some (meBlk d n ((o - 0x800) / 0x100) + o % 0x100)
  else if o < 0xD00 then some (veBlk d n + o % 0x100)
  else if o < 0xE00 then some (sfeBlk d n + o % 0x100)
  else none

/-- Whether writing a register here is a write whose target is a register slot that a core may reach. -/
def regionWrite (s : State) (d l : Nat) (bs : List Byte) : State :=
  ((List.range (ceilDiv bs.length 8)).foldl (fun s i => slotWrite s (dieAddr d + l + 8 * i) (leWord (slice bs (8 * i) 8))) s)

/-- A write performed at its home (R190): a register, or bytes of memory. -/
def homeWrite (s : State) (d l : Nat) (bs : List Byte) : State :=
  match homeOf l with
  | some (.reg _) => regionWrite s d l bs
  | _ => poke s d l bs

end Sys2Proof.Machine
end

