-- ==== Sys2Proof/Machine/Sequencer.lean ====
section
/-! DEFINITION. The sequencer's own instructions (R62-R80, R87): scalar and descriptor forms of MV, CT, SY and PW. -/

namespace Sys2Proof.Machine

/-- What the sequencer finds when it takes an instruction at issue. -/
inductive Issued where
  /-- a precise fault: nothing of the instruction takes effect (R89) -/
  | fault (s : State) (code : Nat) (faddr : Word)
  /-- a fault found once the instruction has issued -/
  | late (s : State) (code : Nat) (faddr : Word)
  /-- it cannot issue yet, and is tried again at the release -/
  | hold (why : HoldWhy)
  /-- it has executed whole; the program counter goes to the offset -/
  | done (s : State) (pc : Nat)
  /-- it has issued and completes later; issue goes on -/
  | sent (s : State)
  /-- it has issued, and holds issue until its completion -/
  | wait (s : State) (why : HoldWhy)
  /-- it has not issued: what it needs of another module has been asked for, and issue waits for the answer -/
  | ask (s : State)
  /-- it has reset its own core -/
  | gone (s : State)

/-- Scalar register (R67): x0 reads 0. -/
def xget (c : CoreSt) (k : BitVec 5) : Word := if k = 0 then 0 else tget 0 c.x k.toNat

/-- Scalar register written (R67): a write to x0 is discarded. -/
def xset (c : CoreSt) (k : BitVec 5) (v : Word) : CoreSt := 
  if k = 0 then c
  else { c with x := tset c.x k.toNat v, upsets := c.upsets.filter fun p => p.1 != unitX k.toNat }

/-- Descriptor register (R67). -/
def aget (c : CoreSt) (k : BitVec 4) : Desc := tget Desc.zero c.a k.toNat

/-- Descriptor register written. -/
def aset (c : CoreSt) (k : BitVec 4) (v : Desc) : CoreSt :=
  { c with a := tset c.a k.toNat v, upsets := c.upsets.filter fun p => p.1 != unitA k.toNat }

/-- Offset of the next instruction (R93). -/
def pcOf (s : State) (d n : Nat) : Nat := rf s (coreBlk d n) CORE_PC_PC * 16

/-- The program counter set. -/
def setPc (s : State) (d n pc : Nat) : State := wf s (coreBlk d n) CORE_PC_PC (pc / 16)

/-- A scalar register of a core written. -/
def setX (s : State) (d n : Nat) (k : BitVec 5) (v : Word) : State := modCore s d n fun c => xset c k v

/-- A descriptor register of a core written. -/
def setA (s : State) (d n : Nat) (k : BitVec 4) (v : Desc) : State := modCore s d n fun c => aset c k v

/-! MV, scalar forms. -/

/-- The ALU operations (R78); none for a reserved code. -/
def aluOp (op : Nat) (a b : Word) : Option Word :=
  let sh := bits b.toNat 5 0
  match op with
  | 0 => some (a + b)
  | 1 => some (a - b)
  | 2 => some (a &&& b)
  | 3 => some (a ||| b)
  | 4 => some (a ^^^ b)
  | 5 => some (a <<< sh)
  | 6 => some (a >>> sh)
  | 7 => some (a.sshiftRight sh)
  | 8 => some (a * b)
  | 9 => some (if a.toNat ≤ b.toNat then a else b)
  | 10 => some (if a.toNat ≤ b.toNat then b else a)
  | _ => none

/-- MOVI (R78). -/
def bodyMovi (s : State) (d n pc : Nat) (o : SeqOp) : Issued := .done (setX s d n o.xd o.imm) (pc + 16)

/-- ALU (R78): Y is IMM where FUNC[6] is 1, else XB. -/
def bodyAlu (s : State) (d n pc : Nat) (o : SeqOp) : Issued :=
  let c := getCore s d n
  let y := if o.func.getLsbD 6 then o.imm else xget c o.xb
  match aluOp (bits o.func.toNat 3 0) (xget c o.xa) y with
  | some v => .done (setX s d n o.xd v) (pc + 16)
  | none => .fault s fcILL 0

/-- Address XA + IMM. -/
def xaImm (s : State) (d n : Nat) (o : SeqOp) : Word := xget (getCore s d n) o.xa + o.imm

/-- A READ packet from a unit of die `d` (R326). -/
def sendRead (s : State) (d unit : Nat) (a : Word) (len : Nat) : State :=
  let (t, s) := drawTag s d
  sendPacket s d (addrMod a) 1 (newPacket s d t a unit len [])

/-- A WRITE packet from a unit of die `d` (R326). -/
def sendWrite (s : State) (d unit : Nat) (a : Word) (bs : List Byte) : State :=
  let (t, s) := drawTag s d
  sendPacket s d (addrMod a) 2 (newPacket s d t a unit bs.length bs)

/-- Issue waits for the answer to the next packet of the die. -/
def awaitTag (s : State) (d n : Nat) : State :=
  modCore s d n fun c => { c with loadTag := some ((getDie s d).tag % 2 ^ 32) }

/-- Whether a write of these bytes at an address sets CORE_CTRL.RESET of the core itself (R94, R96). -/
def resetsSelf (d n a : Nat) (bs : List Byte) : Bool :=
  let ctl := coreBlk d n + 8
  decide (a ≤ ctl) && decide (ctl < a + bs.length) && (bs.getD (ctl - a) 0).getLsbD 1

/-- What another module has answered to the request that the issue of a core waits for (R326). -/
inductive Asked where
  /-- nothing has been asked for -/
  | no
  | waiting
  /-- STATUS and data, the answer taken -/
  | answer (s : State) (status : Nat) (bs : List Byte)

/-- The answer to the request under the core's TAG. -/
def askedOf (s : State) (d n : Nat) : Asked :=
  match (getCore s d n).loadTag with
  | none => .no
  | some tag =>
    match answersOf s d (unitCore n) tag 1 with
    | none => .waiting
    | some l =>
      let x := l.headD (0, [])
      .answer (modCore (dropAnswers s d (unitCore n) tag 1) d n fun c => { c with loadTag := none }) x.1 x.2

/-- The precise fault of a request that another module answers with STATUS 1, poison, or 2, an address error (R89,
R326). -/
def askFault (s : State) (st : Nat) (a : Word) : Issued :=
  .fault s (if st = 2 then fcADDR else fcMEM) (if st = 2 then a else unitAddr a)

/-- A read that the issue of a core makes at an address which names another module (R174): asked for once, then
answered; `k` goes on with the bytes. -/
def askRead (s : State) (d n : Nat) (a : Word) (len : Nat) (k : State → List Byte → Issued) : Issued :=
  match askedOf s d n with
  | .no => .ask (sendRead (awaitTag s d n) d (unitCore n) a len)
  | .waiting => .hold .load
  | .answer s 0 bs => k s (slice bs 0 len)
  | .answer s st _ => askFault s st a

/-- A write of the same kind: `k` goes on once it is acknowledged. -/
def askWrite (s : State) (d n : Nat) (a : Word) (bs : List Byte) (k : State → Issued) : Issued :=
  match askedOf s d n with
  | .no => .ask (sendWrite (awaitTag (countOut s d (n / 16) bs.length) d n) d (unitCore n) a bs)
  | .waiting => .hold .load
  | .answer s 0 _ => k s
  | .answer s st _ => askFault s st a

/-- LDX and DLD at issue (R78, R89: of two faults the lower code is raised): the request goes out and issue holds until
its data returns. -/
def loadIssue (s : State) (d n : Nat) (a : Word) (len : Nat) : Issued :=
  match checkTarget s d (n / 16) (some n) false a len with
  | .fenced => .fault (countFence s d (n / 16)) fcADDR a
  | .unmapped b => .fault s fcADDR b
  | .here t _ => if a.toNat % len ≠ 0 then .fault s fcALIGN a else .wait (meshWake s d t) .load
  | .away _ _ _ =>
    if a.toNat % len ≠ 0 then .fault s fcALIGN a
    else .wait (sendRead (awaitTag s d n) d (unitCore n) a len) .load

/-- LDX (R78). -/
def bodyLdx (s : State) (d n : Nat) (o : SeqOp) : Issued := loadIssue s d n (xaImm s d n o) 8

/-- DLD (R78). -/
def bodyDld (s : State) (d n : Nat) (o : SeqOp) : Issued := loadIssue s d n (xaImm s d n o) 64

/-- A write that leaves the core (R78, R190): performed at its home on the module, or sent to another module; a route
over a down edge returns it with poison (R186). -/
def storeIssue (s : State) (d n pc : Nat) (h : Hdr) (a : Word) (bs : List Byte) : Issued :=
  let len := bs.length
  match checkTarget s d (n / 16) (some n) true a len with
  | .fenced => .fault (countFence s d (n / 16)) fcADDR a
  | .unmapped b => .fault s fcADDR b
  | .here t l =>
    if a.toNat % len ≠ 0 then .fault s fcALIGN a
    else if writeLost s d t l len then .late s fcMEM (unitAddr a)
    else if resetsSelf d n (dieAddr t + l) bs then .gone (homeWrite s t l bs)
    else
      let s := carry s d (some (n / 16)) t l len true
      .sent (modCore (homeWrite s t l bs) d n fun c => { c with stores := c.stores ++ [⟨h.sen, h.ssem, pc, true, 0, a⟩] })
  | .away _ _ _ =>
    if a.toNat % len ≠ 0 then .fault s fcALIGN a
    else
      let tag := (getDie s d).tag % 2 ^ 32
      .sent (modCore (sendWrite (countOut s d (n / 16) len) d (unitStore n) a bs) d n fun c =>
        { c with stores := c.stores ++ [⟨h.sen, h.ssem, pc, false, tag, a⟩] })

/-- STX (R78). -/
def bodyStx (s : State) (d n pc : Nat) (h : Hdr) (o : SeqOp) : Issued :=
  storeIssue s d n pc h (xaImm s d n o) (wordBytes (xget (getCore s d n) o.xb))

/-- DST (R78). -/
def bodyDst (s : State) (d n pc : Nat) (h : Hdr) (o : SeqOp) : Issued :=
  storeIssue s d n pc h (xaImm s d n o) (descBytes (aget (getCore s d n) o.ad))

/-- DSET (R78): the field of AD that FUNC names; none for a reserved field number. -/
def descSet (f : Nat) (d : Desc) (v : Word) : Option Desc :=
  match f with
  | 0 => some { d with base := v }
  | 1 => some { d with sbase := v }
  | 2 => some { d with rows := v.setWidth 32 }
  | 3 => some { d with cols := v.setWidth 32 }
  | 4 => some { d with rstride := v.setWidth 32 }
  | 5 => some { d with srstride := v.setWidth 32 }
  | 6 => some { d with tid := v.setWidth 32 }
  | 7 => some { d with irow := v.setWidth 32 }
  | 8 => some { d with ibase := v.setWidth 50 }
  | 9 => some { d with fmt := v.setWidth 4, bsz := BitVec.ofNat 2 (bits v.toNat 5 4), scaled := v.getLsbD 6 }
  | _ => none

/-- DSET (R65, R78). -/
def bodyDset (s : State) (d n pc : Nat) (o : SeqOp) : Issued :=
  let c := getCore s d n
  match descSet o.func.toNat (aget c o.ad) (xget c o.xb) with
  | some v => .done (setA s d n o.ad v) (pc + 16)
  | none => .fault s fcILL 0

/-- DADV (R70): the view's origin moved by `dr` rows and `dc` columns, or none where the descriptor fault is raised. -/
def descAdv (d : Desc) (dr dc : Int) : Option Desc :=
  let b : Int := d.base.toNat + dr * d.rstride.toNat + dc * fmtBits d.fmt / 8
  let sb : Int := d.sbase.toNat + dr * d.srstride.toNat + dc / blkSize d.bsz
  let ib : Int := d.ibase.toNat + dr * d.irow.toNat + dc
  if !fmtDefined d.fmt then none
  else if d.scaled && dc % blkSize d.bsz ≠ 0 then none
  else if d.fmt = fE2M1 && dc % 2 ≠ 0 then none
  else if b < 0 || b ≥ 2 ^ 64 then none
  else if d.scaled && (sb < 0 || sb ≥ 2 ^ 64) then none
  else if ib < 0 || ib ≥ 2 ^ 50 then none
  else some { d with
    base := BitVec.ofInt 64 b
    sbase := if d.scaled then BitVec.ofInt 64 sb else d.sbase
    ibase := BitVec.ofInt 50 ib }

/-- DADV (R70, R78). -/
def bodyDadv (s : State) (d n pc : Nat) (o : SeqOp) : Issued :=
  match descAdv (aget (getCore s d n) o.ad) (sext 32 o.imm.toNat) (sext 32 (o.imm.toNat / 2 ^ 32)) with
  | some v => .done (setA s d n o.ad v) (pc + 16)
  | none => .fault s fcDESC 0

/-- SRD (R78, R178). -/
def bodySrd (s : State) (d n pc : Nat) (o : SeqOp) : Issued :=
  let v := match windowReg d n (bits o.imm.toNat 11 0) with
    | some a => regRead s a
    | none => 0
  .done (setX s d n o.xd v) (pc + 16)

/-- SWR (R78, R178): what the written register triggers happens with the write; a write that resets or starts the core
ends there. -/
def bodySwr (s : State) (d n pc : Nat) (o : SeqOp) : Issued :=
  match windowReg d n (bits o.imm.toNat 11 0) with
  | some a =>
    let v := xget (getCore s d n) o.xb
    if resetsSelf d n a (wordBytes v) then .gone (slotWrite s a v) else .done (slotWrite s a v) (pc + 16)
  | none => .done s (pc + 16)

/-! CT. -/

/-- Core-memory offsets that hold instructions (R76, R81). -/
def pcBacked (p : Int) : Bool := decide (0 ≤ p) && decide (p < 0x180000)

/-- The program counter on reaching offset `p` other than by a branch (R75): at the end of the innermost body entered at
this call depth it returns to the body's start, or leaves the loop; `fuel` bounds the loops that end there. -/
def arrive : Nat → CoreSt → Nat → CoreSt × Nat
  | 0, c, p => (c, p)
  | fuel + 1, c, p =>
    match c.loops with
    | [] => (c, p)
    | l :: rest =>
      if l.stop = p && l.depth = c.rets.length then
        if l.iter + 1 < l.count then
          (xset { c with loops := { l with iter := l.iter + 1 } :: rest } l.xd (xget c l.xd + 1), l.start)
        else arrive fuel (xset { c with loops := rest } l.xd (BitVec.ofNat 64 l.count)) p
      else (c, p)

/-- NOP (R79). -/
def bodyNop (s : State) (pc : Nat) : Issued := .done s (pc + 16)

/-- Branch conditions (R79); none for the reserved code. -/
def brCond (f : Nat) (a b : Word) : Option Bool :=
  match f with
  | 0 => some true
  | 1 => some (a == b)
  | 2 => some (a != b)
  | 3 => some (decide (a.toNat < b.toNat))
  | 4 => some (decide (b.toNat ≤ a.toNat))
  | 5 => some (decide (a.toInt < b.toInt))
  | 6 => some (decide (b.toInt ≤ a.toInt))
  | _ => none

/-- Target of a signed instruction offset counted from the instruction itself (R76). -/
def brTarget (pc : Nat) (o : SeqOp) : Int := (pc : Int) + 16 * sext 24 o.imm.toNat

/-- Whether a taken branch stays inside the innermost body entered at the current call depth (R76). -/
def inBody (c : CoreSt) (p : Int) : Bool :=
  match c.loops with
  | l :: _ => if l.depth = c.rets.length then decide ((l.start : Int) ≤ p) && decide (p < l.stop) else true
  | [] => true

/-- A taken branch lands (R76, R89). -/
def branchTo (s : State) (d n : Nat) (p : Int) : Issued :=
  if !pcBacked p then .fault s fcADDR (slotAddr s d n 0 + BitVec.ofInt 64 p)
  else if !inBody (getCore s d n) p then .fault s fcLOOP 0
  else .done s p.toNat

/-- BR (R76, R79). -/
def bodyBr (s : State) (d n pc : Nat) (o : SeqOp) : Issued :=
  let c := getCore s d n
  match brCond (bits o.func.toNat 2 0) (xget c o.xa) (xget c o.xb) with
  | none => .fault s fcILL 0
  | some false => .done s (pc + 16)
  | some true => branchTo s d n (brTarget pc o)

/-- CALL (R76, R79). -/
def bodyCall (s : State) (d n pc : Nat) (o : SeqOp) : Issued :=
  let p := brTarget pc o
  if !pcBacked p then .fault s fcADDR (slotAddr s d n 0 + BitVec.ofInt 64 p)
  else if (getCore s d n).rets.length ≥ 8 then .fault s fcCALL 0
  else .done (modCore s d n fun c => { c with rets := (pc + 16) :: c.rets }) p.toNat

/-- RET (R76, R79); of two faults the lower code is raised (R90). -/
def bodyRet (s : State) (d n : Nat) : Issued :=
  let c := getCore s d n
  if c.loops.head?.any fun l => l.depth == c.rets.length then .fault s fcLOOP 0
  else match c.rets with
    | [] => .fault s fcCALL 0
    | p :: rest => .done (setCore s d n { c with rets := rest }) p

/-- LOOP (R75, R79). -/
def bodyLoop (s : State) (d n pc : Nat) (o : SeqOp) : Issued :=
  let c := getCore s d n
  let k := if o.func.getLsbD 0 then bits (xget c o.xa).toNat 31 0 else bits o.imm.toNat 31 0
  let len := bits o.imm.toNat 47 32
  if len = 0 then .fault s fcILL 0
  else if c.loops.length ≥ 4 then .fault s fcLOOP 0
  else
    let stop := pc + 16 + 16 * len
    let c := xset c o.xd 0
    if k = 0 then .done (setCore s d n c) stop
    else .done (setCore s d n { c with loops := ⟨pc + 16, stop, k, 0, o.xd, c.rets.length⟩ :: c.loops }) (pc + 16)

/-- BRK (R75, R79). -/
def bodyBrk (s : State) (d n : Nat) : Issued :=
  let c := getCore s d n
  match c.loops with
  | [] => .fault s fcLOOP 0
  | l :: rest =>
    if l.depth < c.rets.length then .fault s fcLOOP 0
    else .done (setCore s d n (xset { c with loops := rest } l.xd (BitVec.ofNat 64 l.iter))) l.stop

/-- HALT (R77): issue stops; CORE_DONE follows. -/
def bodyHalt (s : State) : Issued := .wait s .halt

/-! SY and PW. -/

/-- SSIG (R80). -/
def bodySsig (s : State) (d n pc : Nat) (o : SeqOp) : Issued :=
  let k := bits o.imm.toNat 31 16
  if k = 0 then .fault s fcILL 0
  else .done (semSignal s d n (bits o.imm.toNat 5 0) k 0 (slotAddr s d n pc)) (pc + 16)

/-- SWAIT (R71, R80): issue holds until the semaphore holds the count. -/
def bodySwait (s : State) (d n pc : Nat) (o : SeqOp) : Issued :=
  let k := bits o.imm.toNat 31 16
  let q := bits o.imm.toNat 5 0
  if k = 0 then .fault s fcILL 0
  else if semVal s d n q < k then .hold .sem
  else .done (setSem s d n q (semVal s d n q - k)) (pc + 16)

/-- Whether an issued instruction is one that R73 does not wait for: its only destinations lie inside one engine. -/
def inEngineOnly (i : Instr) : Bool :=
  match i with
  | .mma .. | .minit .. | .vlpld .. | .stld .. => true
  | _ => false

/-- The condition of R73: no earlier instruction that writes core memory, a tile register, a conveyor or anything
outside the core is uncompleted. -/
def visible (c : CoreSt) : Bool :=
  c.eng.all (fun p => p.2.all fun o => inEngineOnly o.ins) && c.stores.isEmpty && c.gcOwed.isEmpty && c.pluOwed.isEmpty

/-- FENCE (R73). -/
def bodyFence (s : State) (d n pc : Nat) : Issued := if visible (getCore s d n) then .done s (pc + 16) else .hold .fence

/-- Target core of an RSIG (R80). -/
def rsigTarget (s : State) (d n : Nat) (o : SeqOp) : Nat := bits (xget (getCore s d n) o.xa).toNat 7 0

/-- RSIG (R80, R191, R193): the fence checks the target as a request to the die itself, and the signal waits for the
condition of R73.  DESIGN CHOICE (log 132): R90 names the source of an overflow by an RSIG from another core; of one by an
RSIG to the signalling core itself the sequencer is recorded, SRC 0, with the RSIG's own address. -/
def bodyRsig (s : State) (d n pc : Nat) (o : SeqOp) : Issued :=
  let t := rsigTarget s d n o
  let k := bits o.imm.toNat 31 16
  if noLmod s d || !fencePermits s d (lmod s d) d then
    .fault (countFence s d (n / 16)) fcADDR (slotAddr s d t 0)
  else if !visible (getCore s d n) then .hold .fence
  else .done (semSignal s d t (bits o.imm.toNat 5 0) k (if t = n then 0 else 7) (if t = n then slotAddr s d n pc else 0)) (pc + 16)

/-- Key of a barrier in the die's table: 0-3 die scope, 8 + 8c + b cluster scope (R74). -/
def barKey (die : Bool) (c b : Nat) : Nat := if die then b % 4 else 8 + 8 * c + b

/-- Whether a core takes part in a barrier (R74). -/
def barMember (s : State) (d n : Nat) (die : Bool) (b : Nat) : Bool :=
  if die then (getDie s d).participants.any fun k => k.val == n
  else (regWord s (clBlk d (n / 16) + 8 + 8 * b)).getLsbD (n % 16)

/-- BAR (R74): a core arrives once the condition of R73 holds, then holds issue until all have arrived. -/
def bodyBar (s : State) (d n : Nat) (o : SeqOp) : Issued :=
  let die := o.func.getLsbD 0
  let b := if die then bits o.imm.toNat 1 0 else bits o.imm.toNat 2 0
  if !barMember s d n die b then .fault s fcBAR 0
  else if !visible (getCore s d n) then .hold .fence
  else
    let k := barKey die (n / 16) b
    .wait (modDie s d fun x => { x with arrived := tset x.arrived k (tget [] x.arrived k ++ [Fin.ofNat 256 n]) }) .barrier

/-- Whether a wake condition of WAIT holds (R87): a selected semaphore is nonzero, or the timer has run out. -/
def wakeTrue (s : State) (d n : Nat) (o : SeqOp) : Bool :=
  (List.range 64).any (fun k => o.imm.getLsbD k && semVal s d n k != 0)
    || (o.func.getLsbD 0 && rf s (coreBlk d n) CORE_WTIME_WTIME == 0)

/-- Whether entry to Hold has reached E2 (R87): engine queues empty, everything complete, R73. -/
def drained (c : CoreSt) : Bool :=
  c.eng.all (fun p => p.2.isEmpty) && c.stores.isEmpty && c.gcOwed.isEmpty && c.pluOwed.isEmpty

/-- A core in WAIT with MODE 1 whose units have drained, and which no wake condition holds back, enters HOLD (R87: E3). -/
def enterHold (s : State) (d n : Nat) : State :=
  if coreState s d n = stWAIT && rf s (coreBlk d n) CORE_PWR_MODE = 1 && drained (getCore s d n) then
    setCoreState s d n stHOLD
  else s

/-- WAIT (R87): a wake condition that is true at once completes it; otherwise the core waits. -/
def bodyWait (s : State) (d n pc : Nat) (o : SeqOp) : Issued :=
  if wakeTrue s d n o then .done s (pc + 16)
  else .wait (enterHold (setCoreState s d n stWAIT) d n) .wait

end Sys2Proof.Machine
end

