-- ==== Sys2Proof/Machine/Dma.lean ====
section
/-! DEFINITION. The DMA engine (R203-R222): descriptors, bursts and their arbiter, completion, pause, abort and errors. -/

namespace Sys2Proof.Machine

/-! Descriptor fields (R205). -/

/-- Bits of the first word of a descriptor. -/
def dWord (w : List Word) (hi lo : Nat) : Nat := bits (wd w 0).toNat hi lo

/-- OP. -/
def dOp (w : List Word) : Nat := dWord w 3 0

/-- KIND. -/
def dKind (w : List Word) : Nat := dWord w 5 4

/-- SRC. -/
def dSrc (w : List Word) : Word := wd w 1

/-- DST. -/
def dDst (w : List Word) : Word := wd w 2

/-- LEN. -/
def dLen (w : List Word) : Nat := bits (wd w 3).toNat 31 0

/-- Rows that move: none for NOP (R207). -/
def dRows (w : List Word) : Nat := if dOp w = 5 then 0 else bits (wd w 3).toNat 63 32

/-- SSTRIDE. -/
def dSstride (w : List Word) : Nat := bits (wd w 4).toNat 31 0

/-- DSTRIDE. -/
def dDstride (w : List Word) : Nat := bits (wd w 4).toNat 63 32

/-- IDX or PATTERN. -/
def dIdx (w : List Word) : Word := wd w 5

/-- LIMIT. -/
def dLimit (w : List Word) : Nat := (wd w 6).toNat

/-- Whether a descriptor reads an index list. -/
def dIndexed (w : List Word) : Bool := dOp w == 3 || dOp w == 4

/-- First address of the region that R208 checks. -/
def dRegion (w : List Word) : Nat := if dKind w = 3 then (dSrc w).toNat else (dDst w).toNat

/-- The exact extent of R208. -/
def dExtent (w : List Word) : Nat :=
  dRegion w + (dRows w - 1) * (if dKind w = 3 then dSstride w else dDstride w) + dLen w

/-- The conditions of R207. -/
def dmaDescOk (w : List Word) : Bool :=
  1 ≤ dOp w && dOp w ≤ 5 && dWord w 11 11 == 0 && dWord w 23 22 == 0 && dWord w 31 31 == 0 && dWord w 63 32 == 0
    && (dKind w == 0 || dOp w == 1)
    && (dOp w == 5 || (1 ≤ dLen w && dLen w ≤ 2 ^ 30 && 1 ≤ dRows w && (dRows w == 1 || dLen w ≤ dDstride w)))
    && (!dIndexed w || (dIdx w).toNat % 4 == 0)
    && (dWord w 9 9 == 0 || (wd w 7).toNat % 64 == 0)
    && (dKind w == 0 || dRegion w < dLimit w)

/-- Whether R208 refuses a descriptor. -/
def dmaRefused (w : List Word) : Bool := dKind w != 0 && dLimit w < dExtent w

/-! States and queues (R204, R220). -/

/-- STATE written. -/
def setChan (s : State) (d c k v : Nat) : State := wf s (chBlk d c k) CH_STATUS_STATE v

/-- PAUSE of the channel, or PAUSEALL (R217). -/
def pauseBit (s : State) (d c k : Nat) : Bool :=
  rfb s (chBlk d c k) CH_CTRL_PAUSE || rfb s (dmaBlk d c) DMA_CTRL_PAUSEALL

/-- A pause that is set takes effect in RUN and FETCH (R220). -/
def applyPause (s : State) (d c k : Nat) : State :=
  if (chanState s d c k = 1 || chanState s d c k = 2) && pauseBit s d c k then setChan s d c k 3 else s

/-- A descriptor enters the queue (R204, R220). -/
def enqueueDesc (s : State) (d c k : Nat) (q : QDesc) : State :=
  let s := modChan s d c k fun x => { x with queue := x.queue ++ [q] }
  if chanState s d c k = 0 then applyPause (setChan s d c k 1) d c k else s

/-- Whether the queue is full (R204). -/
def queueFull (s : State) (d c k : Nat) : Bool := decide (4 ≤ chanDepth (getChan s d c k))

/-- Whether a request's target is another module. -/
def isAway (s : State) (d c : Nat) (write : Bool) (a : Word) (len : Nat) : Bool :=
  match checkTarget s d c none write a len with
  | .away _ _ _ => true
  | _ => false

/-- Unit number of a DMA channel in SUNIT (log 23). -/
def unitDma (c k : Nat) : Nat := 0x1000 + c * 32 + k

/-- How the read of a queued descriptor on the module ends (R203, R204): its words, or the error code of R219 with the
address concerned. -/
def readDesc (s : State) (d c : Nat) (a : Word) : State × Except (Nat × Word) (List Word) :=
  match checkTarget s d c none false a 64 with
  | .fenced => (countFence s d c, .error (3, a))
  | .unmapped b => (s, .error (2, b))
  | .away _ _ _ => (s, .error (2, a))
  | .here t l =>
    if routeDown s d t then (s, .error (4, a))
    else match memRead (carry s d (some c) t l 64 false) t l 64 .clean with
      | (s, .poison u) => (s, .error (4, globalAddr s t u))
      | (s, .bytes bs) => (s, .ok (leWords bs))

/-- MV.DQ at issue (R204): the descriptor is read, over the links where its address names another module (R174), and its
copy enqueued. -/
def bodyDq (s : State) (d n pc : Nat) (o : SeqOp) : Issued :=
  let a := xaImm s d n o
  let c := n / 16
  let k := bits (xget (getCore s d n) o.xb).toNat 4 0
  let take := fun s w => Issued.done (enqueueDesc s d c k ⟨w, a, none, none, .clean⟩) (pc + 16)
  if queueFull s d c k then .hold .queue
  else match checkTarget s d c none false a 64 with
  | .fenced => .fault (countFence s d c) fcADDR a
  | .unmapped b => .fault s fcADDR b
  | .away _ _ _ => if a.toNat % 64 ≠ 0 then .fault s fcALIGN a else askRead s d n a 64 fun s bs => take s (leWords bs)
  | .here _ _ =>
    if a.toNat % 64 ≠ 0 then .fault s fcALIGN a
    else match readDesc s d c a with
      | (s, .error (_, x)) => .fault s fcMEM x
      | (s, .ok w) => take s w

/-- `n` free words drawn (log 2). -/
def drawFrees : Nat → State → List Word × State
  | 0, s => ([], s)
  | n + 1, s =>
    let (w, s) := drawFree s
    let (ws, s) := drawFrees n s
    (w :: ws, s)

/-- A queue entry whose read has failed (R204): its words are free (log 2). -/
def failedDesc (s : State) (a : Word) (e : Nat) : State × QDesc :=
  let (w, s) := drawFrees 8 s
  (s, ⟨w, a, some (BitVec.ofNat 8 e), none, .clean⟩)

/-- A write to CH_DQ (R204): a full queue drops it; a read that fails leaves a failed entry; a read of another module
leaves an entry that waits for its answer. -/
def chDqWrite (s : State) (d c k : Nat) (a : Word) : State :=
  if queueFull s d c k then setBit s (chBlk d c k) CH_STATUS_DQDROP
  else if isAway s d c false a 64 then
    let tag := (getDie s d).tag % 2 ^ 32
    enqueueDesc (sendRead s d (unitDma c k) a 64) d c k ⟨[], a, none, some tag, .clean⟩
  else match readDesc s d c a with
    | (s, .ok w) => enqueueDesc s d c k ⟨w, a, none, none, .clean⟩
    | (s, .error (e, _)) =>
      let (s, q) := failedDesc s a e
      enqueueDesc s d c k q

/-! Errors (R219). -/

/-- Eight descriptor words shown in CH_DESC0-7. -/
def showDesc (s : State) (d c k : Nat) (w : List Word) : State :=
  (List.range 8).foldl (fun s i => setReg s (chBlk d c k + 0x28 + 8 * i) (wd w i)) s

/-- Position shown in CH_POS. -/
def showPos (s : State) (d c k row off : Nat) : State :=
  wf (wf s (chBlk d c k) CH_POS_ROW row) (chBlk d c k) CH_POS_OFF off

/-- An error of a descriptor: the first is recorded, the channel stops sending, no later completion is signalled, and a
notice is raised (R219, R474, R475).  The descriptor at the head keeps its queue entry (log 22). -/
def chanError (s : State) (d c k serial code : Nat) (addr : Word) (row off : Nat) (w : List Word) : State :=
  if chanState s d c k = 5 || chanState s d c k = 6 then s
  else
    let s := wf s (chBlk d c k) CH_STATUS_ERR code
    let s := wf s (chBlk d c k) CH_ERRADDR addr.toNat
    let s := showDesc (showPos s d c k row off) d c k w
    let s := setChan s d c k 5
    let s := modChan s d c k fun x =>
      { x with
        queue := (match x.head with
          | some h => if h.byChain then x.queue else h.desc :: x.queue
          | none => x.queue)
        head := none
        finishing := x.finishing.filter fun f => f.serial < serial }
    if code = 6 then raiseNotice s d 0 (addrMod addr) 0 0 3 code
    else raiseNotice s d 3 (lmod s d) d (c + 16 * k) 3 code

/-- Words of the descriptor with a serial number. -/
def descWords (x : ChanSt) (serial : Nat) : List Word :=
  ((x.finishing.find? fun f => f.serial == serial).map (·.desc.words)).getD []

/-! Completion (R214). -/

/-- Byte counter of a kind (R208). -/
def kindCounter (w : List Word) : Option Fld :=
  match dKind w with
  | 1 => some CH_CNT_OFFLOAD
  | 2 => some CH_CNT_SPILL
  | 3 => some CH_CNT_RELOAD
  | _ => none

/-- The signal and the counters of a descriptor that completes, or of one that was refused (R208, R214). -/
def finishDesc (s : State) (d c k : Nat) (f : DoneSt) : State :=
  let w := f.desc.words
  let core := c * 16 + dWord w 15 12
  if f.refused then
    (if dWord w 30 30 = 1 then semSignal s d core (dWord w 29 24) 1 7 0 else s)
  else
    let s := match kindCounter w with
      | some fld => bump s (chBlk d c k) fld (dLen w * dRows w)
      | none => s
    if dWord w 10 10 = 1 then semSignal s d core (dWord w 21 16) 1 7 0 else s

/-- Descriptors that complete, in order: all bursts granted and all writes, with those of earlier ones, acknowledged;
`fuel` bounds them. -/
def completeDescs : Nat → State → Nat → Nat → Nat → State
  | 0, s, _, _, _ => s
  | fuel + 1, s, d, c, k =>
    let x := getChan s d c k
    match x.finishing with
    | f :: rest =>
      if f.issued && x.bursts.all (fun b => b.serial > f.serial) then
        completeDescs fuel (finishDesc (modChan s d c k fun x => { x with finishing := rest }) d c k f) d c k
      else s
    | [] => s

/-- Whether a channel has nothing left to do. -/
def chanQuiet (x : ChanSt) : Bool :=
  x.queue.isEmpty && x.head.isNone && x.fetch.isNone && x.bursts.isEmpty && x.finishing.isEmpty

/-- Completions, then RUN to IDLE when nothing is left (R214, R220). -/
def settleChan (s : State) (d c k : Nat) : State :=
  let s := completeDescs (getChan s d c k).finishing.length s d c k
  if chanState s d c k = 1 && chanQuiet (getChan s d c k) then setChan s d c k 0 else s

/-! The head descriptor and its bursts (R206-R209). -/

/-- Leading rows whose index skips them (R206). -/
def skipRows : List (BitVec 32) → Nat → List (BitVec 32) × Nat
  | [], r => ([], r)
  | x :: l, r => if x = 0xFFFFFFFF then skipRows l (r + 1) else (x :: l, r)

/-- Whether BAR holds the head (R213): a burst of an earlier descriptor is not acknowledged. -/
def barHeld (x : ChanSt) (h : HeadSt) : Bool :=
  dWord h.desc.words 8 8 == 1 && x.bursts.any fun b => b.serial < h.serial

/-- The head after a burst was granted or indices arrived: skipped rows pass; once every row is granted its descriptor
is issued, and without CHAIN the head is free (R206, R216); a NOP stays while its BAR holds it (R206, R213). -/
def advanceHead (s : State) (d c k : Nat) : State :=
  modChan s d c k fun x =>
    match x.head with
    | none => x
    | some h =>
      let h := if h.off = 0 then { h with idx := (skipRows h.idx h.row).1, row := (skipRows h.idx h.row).2 } else h
      if h.row < dRows h.desc.words || barHeld x h then { x with head := some h }
      else
        { x with
          head := if dWord h.desc.words 9 9 = 1 then some { h with byChain := true } else none
          finishing := x.finishing.map fun f => if f.serial = h.serial then { f with issued := true } else f }

/-- A good descriptor becomes the head. -/
def startDesc (s : State) (d c k : Nat) (q : QDesc) (byChain : Bool) : State :=
  let s := modChan s d c k fun x =>
    { x with
      serial := x.serial + 1
      head := some ⟨q, byChain, x.serial, 0, 0, [], 0⟩
      finishing := x.finishing ++ [⟨x.serial, false, false, q⟩] }
  settleChan (advanceHead s d c k) d c k

/-- A refused descriptor (R208). -/
def refuseDesc (s : State) (d c k : Nat) (q : QDesc) : State :=
  let s := bump (setBit s (chBlk d c k) CH_STATUS_RFULL) (chBlk d c k) CH_CNT_RFULL 1
  let s := modChan s d c k fun x =>
    { x with serial := x.serial + 1, finishing := x.finishing ++ [⟨x.serial, true, true, q⟩] }
  settleChan s d c k

/-- A descriptor at the head of the queue or come by CHAIN is checked (R207), refused (R208) or started. -/
def checkDesc (s : State) (d c k : Nat) (q : QDesc) (byChain : Bool) : State :=
  let stop (e : Nat) : State :=
    let s := if byChain then s else modChan s d c k fun x => { x with queue := q :: x.queue }
    chanError s d c k (getChan s d c k).serial e q.addr 0 0 q.words
  match q.failed with
  | some e => stop e.toNat
  | none =>
    if !dmaDescOk q.words then stop 1
    else if dmaRefused q.words then refuseDesc s d c k q
    else startDesc s d c k q byChain

/-- The entry at the front of the queue with what another module has answered to its read: none while it waits (R204). -/
def arrivedDesc (s : State) (d c k : Nat) (q : QDesc) : Option (State × QDesc) :=
  match q.tag with
  | none => some (s, q)
  | some tag =>
    (answersOf s d (unitDma c k) tag 1).map fun l =>
      let x := l.headD (0, [])
      let s := dropAnswers s d (unitDma c k) tag 1
      if x.1 = 0 then (s, { q with words := leWords (slice x.2 0 64), tag := none })
      else failedDesc s q.addr (if x.1 = 2 then 2 else 4)

/-- The read of a queue entry (R195, class 0x09): a corrected error is counted, an uncorrectable one fails the entry (R219:
the queue memory error).  Its notice accuses the cluster and the channel: DESIGN CHOICE (log 122). -/
def readEntry (s : State) (d c k : Nat) (q : QDesc) : State × QDesc :=
  match q.upset with
  | .clean => (s, q)
  | .corrected => (recordCE s d 9 3 (c + 16 * k), { q with upset := .clean })
  | .uncorrectable => (recordUnplaced s d 9 c 3 (c + 16 * k), { q with failed := some 5 })

/-- DESCRIPTOR_HEAD (R204, R207, R208). -/
def execDescriptorHead (c : ChId) (s : State) : Out :=
  let d := c.die.val
  let cl := c.cl.val
  let k := c.ch.val
  let x := getChan s d cl k
  onDie d s <|
    if chanState s d cl k = 1 && !x.aborting && x.head.isNone && x.fetch.isNone then
      match x.queue with
      | q :: rest =>
        match arrivedDesc s d cl k q with
        | none => s
        | some (s, q) =>
          let (s, q) := readEntry s d cl k q
          checkDesc (modChan s d cl k fun x => { x with queue := rest }) d cl k q false
      | [] => s
    else s

/-- What a channel could issue next. -/
inductive Ready where
  | index (a : Word) (len : Nat)
  | row (src dst : Word) (len : Nat)
  | chain (a : Word)
  deriving DecidableEq, Repr

/-- Length of a burst at a position: to the end of the row, and no 1,024-byte boundary of source or destination crossed
(R209). -/
def burstLen (w : List Word) (src dst : Word) (off : Nat) : Nat :=
  let n := min (dLen w - off) (1024 - dst.toNat % 1024)
  if dOp w = 2 then n else min n (1024 - src.toNat % 1024)

/-- Source and destination of the row at the head's position (R206). -/
def rowAddrs (h : HeadSt) : Word × Word :=
  let w := h.desc.words
  let x := (h.idx.headD 0).toNat
  let sr := if dOp w = 3 then x else h.row
  let dr := if dOp w = 4 then x else h.row
  (dSrc w + BitVec.ofNat 64 (sr * dSstride w + h.off), dDst w + BitVec.ofNat 64 (dr * dDstride w + h.off))

/-- The burst that the head has ready (R209, R216): an index burst before a row burst, the chained descriptor once all
rows are granted. -/
def readyOf (h : HeadSt) : Option Ready :=
  let w := h.desc.words
  if dIndexed w && h.idxAsked < dRows w && h.idx.length ≤ 64 then
    let a := dIdx w + BitVec.ofNat 64 (4 * h.idxAsked)
    some (.index a (min (256 - a.toNat % 256) (4 * (dRows w - h.idxAsked))))
  else if h.row < dRows w then
    if dIndexed w && h.idx.isEmpty then none
    else
      let p := rowAddrs h
      some (.row p.1 p.2 (burstLen w p.1 p.2 h.off))
  else if dWord w 9 9 = 1 then some (.chain (wd w 7))
  else none

/-- What a channel requests in this cycle (R210). -/
def requestOf (s : State) (d c k : Nat) : Option (HeadSt × Ready) :=
  let x := getChan s d c k
  if chanState s d c k = 1 && !x.aborting && x.bursts.length < 64 then
    match x.head with
    | some h => if barHeld x h then none else (readyOf h).map fun r => (h, r)
    | none => none
  else none

/-- Priority level of a request (R210, R211). -/
def requestLevel (s : State) (d c k : Nat) : Option Nat :=
  (requestOf s d c k).map fun p => if (getChan s d c k).aged then 3 else dWord p.1.desc.words 7 6

/-- The channel that the arbiters grant, with its level (R25, R210). -/
def grantOf (s : State) (d c : Nat) : Option (Nat × Nat) :=
  [3, 2, 1, 0].findSome? fun lv =>
    (rotFirst 32 (tget 0 s.dmaPtr ((d * 16 + c) * 4 + lv)) fun k => requestLevel s d c k == some lv).map fun k => (lv, k)

/-! Requests of a burst (R209). -/

/-- Requests of at most 256 bytes that cross no 256-byte boundary; `fuel` bounds them. -/
def pieces : Nat → Word → Nat → List (Word × Nat)
  | 0, _, _ => []
  | fuel + 1, a, len =>
    if len = 0 then []
    else
      let n := min len (256 - a.toNat % 256)
      (a, n) :: pieces fuel (a + BitVec.ofNat 64 n) (len - n)

/-- Requests of a range of at most 1,024 bytes. -/
def reqs (a : Word) (len : Nat) : List (Word × Nat) := pieces 5 a len

/-- The first request that the router turns away, with its error code (R219). -/
def firstRefused (s : State) (d c : Nat) (write : Bool) (l : List (Word × Nat)) : Option (Word × Nat) :=
  l.findSome? fun p =>
    match checkTarget s d c none write p.1 p.2 with
    | .fenced => some (p.1, 3)
    | .unmapped _ => some (p.1, 2)
    | _ => none

/-- Reads issued: requests to another module go out; a read on the module finds its bytes now, in the order of issue
(R189, R203), with the errors in them (R195, R198), and returns them later. -/
def issueReads (s : State) (d c k : Nat) (b : Burst) : State × Burst :=
  let l := reqs b.src b.len
  if isAway s d c false b.src b.len then
    let tag := (getDie s d).tag
    (l.foldl (fun s p => sendRead s d (unitDma c k) p.1 p.2) s, { b with tag := tag % 2 ^ 32 })
  else
    let t := addrDie b.src
    if routeDown s d t then (s, { b with got := peek s t (addrLocal b.src) b.len, bad := some b.src })
    else
      let s := carry s d (some c) t (addrLocal b.src) b.len false
      let (s, bad) := l.foldl (fun r p =>
        match memRead r.1 t (addrLocal p.1) p.2 .clean with
        | (s, .poison _) => (s, r.2 <|> some p.1)
        | (s, .bytes _) => (s, r.2)) (s, none)
      (s, { b with got := peek s t (addrLocal b.src) b.len, bad := bad })

/-- The units of a range poisoned (R219: a burst that read poison writes its destination poisoned); what lies on a failed
stack is not written, and an instruction buffer that holds an address of the range is discarded (R83, R181). -/
def poisonRange (s : State) (d l len : Nat) : State :=
  let s := ((List.range len).map fun i => l + i).foldl
    (fun s a => if (a = l || a % unitSize a = 0) && !stackBad s d a then poisonUnit s d a else s) s
  dropIbuf s d l len

/-- Writes of a burst issued (R212): performed at their home on the module, or sent to another; a burst that read poison
poisons its destination. -/
def issueWrites (s : State) (d c k : Nat) (b : Burst) : State × Burst :=
  if isAway s d c true b.dst b.len then
    let tag := (getDie s d).tag
    if b.bad.isSome then (s, { b with writing := true })
    else
      ((reqs b.dst b.len).foldl (fun s p =>
          sendWrite s d (unitDma c k) p.1 (slice b.got (p.1 - b.dst).toNat p.2)) (countOut s d c b.len),
        { b with writing := true, tag := tag % 2 ^ 32 })
  else
    let t := addrDie b.dst
    let l := addrLocal b.dst
    if routeDown s d t then (s, { b with writing := true })
    else
      let s := carry s d (some c) t l b.len true
      (if b.bad.isSome then poisonRange s t l b.len else poke s t l b.got, { b with writing := true })

/-- The first write request of a burst that comes back with poison: its route crosses a down edge (R186), or it names a
failed stack (R181). -/
def writeFailed (s : State) (d c : Nat) (b : Burst) : Option Word :=
  if isAway s d c true b.dst b.len then none
  else ((reqs b.dst b.len).find? fun p => writeLost s d (addrDie b.dst) (addrLocal p.1) p.2).map (·.1)

/-- A burst joins the outstanding ones. -/
def addBurst (s : State) (d c k : Nat) (b : Burst) : State :=
  modChan s d c k fun x => { x with bursts := x.bursts ++ [b] }

/-- The head moved past a granted row burst. -/
def HeadSt.passed (h : HeadSt) (len : Nat) : HeadSt :=
  if h.off + len < dLen h.desc.words then { h with off := h.off + len }
  else { h with off := 0, row := h.row + 1, idx := if dIndexed h.desc.words then h.idx.tail else h.idx }

/-- FILL's bytes of a burst: byte `j` of the row is byte `j mod 8` of PATTERN (R206). -/
def fillBytes (w : List Word) (off len : Nat) : List Byte :=
  (List.range len).map fun i => (wordBytes (dIdx w)).getD ((off + i) % 8) 0

/-- A granted index burst (R209). -/
def grantIndex (s : State) (d c k : Nat) (h : HeadSt) (a : Word) (len : Nat) : State :=
  match firstRefused s d c false [(a, len)] with
  | some (x, e) =>
    chanError (if e = 3 then countFence s d c else s) d c k h.serial e x h.row h.off h.desc.words
  | none =>
    let (s, b) := issueReads s d c k ⟨h.serial, 0, true, a, 0, len, h.row, h.off, [], none, false⟩
    let s := modChan s d c k fun x => { x with head := some { h with idxAsked := h.idxAsked + len / 4 } }
    addBurst s d c k b

/-- A granted row burst (R209, R212): reads go out, or FILL's writes. -/
def grantRow (s : State) (d c k : Nat) (h : HeadSt) (src dst : Word) (len : Nat) : State :=
  let w := h.desc.words
  let fill := dOp w = 2
  let b : Burst := ⟨h.serial, 0, false, src, dst, len, h.row, h.off, if fill then fillBytes w h.off len else [], none, false⟩
  match firstRefused s d c fill (reqs (if fill then dst else src) len) with
  | some (x, e) => chanError (if e = 3 then countFence s d c else s) d c k h.serial e x h.row h.off w
  | none =>
    match (if fill then writeFailed s d c b else none) with
    | some a => chanError (issueWrites s d c k b).1 d c k h.serial 4 a h.row h.off w
    | none =>
      let (s, b) := if fill then issueWrites s d c k b else issueReads s d c k b
      let s := addBurst s d c k b
      let s := modChan s d c k fun x => { x with head := some (h.passed len) }
      settleChan (advanceHead s d c k) d c k

/-- A granted fetch of the next descriptor (R216). -/
def grantChain (s : State) (d c k : Nat) (h : HeadSt) (a : Word) : State :=
  match firstRefused s d c false [(a, 64)] with
  | some (x, e) =>
    chanError (if e = 3 then countFence s d c else s) d c k (h.serial + 1) e x 0 0 h.desc.words
  | none =>
    let (s, b) := issueReads s d c k ⟨h.serial + 1, 0, false, a, 0, 64, 0, 0, [], none, false⟩
    let s := modChan s d c k fun x => { x with head := none, fetch := some b }
    setChan s d c k 2

/-- The channels of a cluster that request and are not granted count a wait (R212). -/
def countWaits (s : State) (d c k : Nat) : State :=
  (List.range 32).foldl (fun s j =>
    if j ≠ k && (requestOf s d c j).isSome then bump s (chBlk d c j) CH_CNT_WAIT 1 else s) s

/-- BURST_GRANT (R210-R212). -/
def execBurstGrant (c : ClId) (s : State) : Out :=
  let d := c.die.val
  let cl := c.cl.val
  onDie d s <|
    match grantOf s d cl with
    | none => s
    | some (lv, k) =>
      match requestOf s d cl k with
      | none => s
      | some (h, r) =>
        let s := countWaits s d cl k
        let s := { s with dmaPtr := tset s.dmaPtr ((d * 16 + cl) * 4 + lv) ((k + 1) % 32) }
        let s := bump (bump s (dmaBlk d cl) DMA_CNT_GRANT 1) (chBlk d cl k) CH_CNT_BURSTS 1
        let s := modChan s d cl k fun x => { x with aged := false }
        match r with
        | .index a len => grantIndex s d cl k h a len
        | .row src dst len => grantRow s d cl k h src dst len
        | .chain a => grantChain s d cl k h a

/-! Returns and acknowledgements. -/

/-- First answer that is not done: the request it answers and the error code, 1 poison, 2 address (R326). -/
def firstFailed (l : List (Word × Nat)) (ans : List (Nat × List Byte)) : Option (Word × Nat) :=
  (l.zip ans).findSome? fun p => if p.2.1 = 0 then none else some (p.1.1, if p.2.1 = 2 then 2 else 4)

/-- What the reads of a burst brought back: none while answers are missing; else the burst with its bytes and the first
failing request with its code. -/
def readsBack (s : State) (d c k : Nat) (b : Burst) (e : Ecc) : Option (State × Burst × Option (Word × Nat)) :=
  let l := reqs b.src b.len
  if addrMod b.src = lmod s d && !noLmod s d then
    let t := addrDie b.src
    let a := addrLocal b.src
    if unserved s d t then none else
    let s := eccEvent s t a e
    let bad := if e = .uncorrectable then some b.src else b.bad
    let s := if a < 0x4800000000 && e = .uncorrectable then setBit s (hbmBlk t (hbmCtl a)) HBM_STATUS_POISON else s
    some (s, { b with bad := bad }, bad.map fun x => (x, 4))
  else
    match answersOf s d (unitDma c k) b.tag l.length with
    | none => none
    | some ans =>
      let f := firstFailed l ans
      some (dropAnswers s d (unitDma c k) b.tag l.length,
        { b with got := (ans.map (·.2)).flatten, bad := f.map (·.1) }, f)

/-- A burst taken from the outstanding ones, or put back changed. -/
def dropBurst (s : State) (d c k i : Nat) : State :=
  modChan s d c k fun x => { x with bursts := x.bursts.eraseIdx i }

/-- A burst replaced. -/
def putBurst (s : State) (d c k i : Nat) (b : Burst) : State :=
  modChan s d c k fun x => { x with bursts := x.bursts.set i b }

/-- Index data that has returned (R206, R209, R219). -/
def indexBack (s : State) (d c k i : Nat) (b : Burst) (f : Option (Word × Nat)) : State :=
  let w := descWords (getChan s d c k) b.serial
  let s := dropBurst s d c k i
  match f with
  | some (a, e) => chanError s d c k b.serial e a b.row b.off w
  | none =>
    let s := modChan s d c k fun x =>
      { x with head := x.head.map fun h =>
          if h.serial = b.serial then
            { h with idx := h.idx ++ (chunks 4 b.got.length b.got).map fun p => BitVec.ofNat 32 (leNat p) } else h }
    settleChan (advanceHead s d c k) d c k

/-- Row data that has returned: the burst issues its writes (R212); poison is written as poison and stops the channel;
a failing write or read sends nothing (R219). -/
def rowBack (s : State) (d c k i : Nat) (b : Burst) (f : Option (Word × Nat)) : State :=
  let w := descWords (getChan s d c k) b.serial
  match f with
  | some (a, 2) => chanError (dropBurst s d c k i) d c k b.serial 2 a b.row b.off w
  | _ =>
    match firstRefused s d c true (reqs b.dst b.len) with
    | some (a, e) =>
      chanError (dropBurst (if e = 3 then countFence s d c else s) d c k i) d c k b.serial e a b.row b.off w
    | none =>
      match writeFailed s d c b with
      | some a => chanError (dropBurst (issueWrites s d c k b).1 d c k i) d c k b.serial 4 a b.row b.off w
      | none =>
        let (s, b) := issueWrites s d c k b
        let s := putBurst s d c k i b
        match f with
        | some (a, e) => chanError s d c k b.serial e a b.row b.off w
        | none => s

/-- BURST_READ_RETURN (R209, R212, R219): the oldest reads outstanding return, on another module once their answers have
arrived. -/
def execBurstReadReturn (c : ChId) (ecc : Ecc) (s : State) : Out :=
  let d := c.die.val
  let cl := c.cl.val
  let k := c.ch.val
  let x := getChan s d cl k
  onDie d s <|
    match indexOf (fun b : Burst => !b.writing) x.bursts with
    | none => s
    | some i =>
      match x.bursts[i]? with
      | none => s
      | some b =>
        match readsBack s d cl k b ecc with
        | none => s
        | some (s, b, f) => if b.index then indexBack s d cl k i b f else rowBack s d cl k i b f

/-- A burst that is acknowledged whole (R214): its bytes count, and descriptors may complete. -/
def burstDone (s : State) (d c k i : Nat) (b : Burst) : State :=
  settleChan (advanceHead (bump (dropBurst s d c k i) (chBlk d c k) CH_CNT_BYTES b.len) d c k) d c k

/-- WRITE_ACK (R190, R214): the oldest writes outstanding are acknowledged, by another module once its answers have
arrived. -/
def execWriteAck (c : ChId) (s : State) : Out :=
  let d := c.die.val
  let cl := c.cl.val
  let k := c.ch.val
  let x := getChan s d cl k
  onDie d s <|
    match indexOf (fun b : Burst => b.writing) x.bursts with
    | none => s
    | some i =>
      match x.bursts[i]? with
      | none => s
      | some b =>
        if !isAway s d cl true b.dst b.len || b.bad.isSome then
          (if unserved s d (addrDie b.dst) then s else burstDone s d cl k i b)
        else
          let l := reqs b.dst b.len
          match answersOf s d (unitDma cl k) b.tag l.length with
          | none => s
          | some ans =>
            let s := dropAnswers s d (unitDma cl k) b.tag l.length
            match firstFailed l ans with
            | none => burstDone s d cl k i b
            | some (a, e) =>
              chanError (dropBurst s d cl k i) d cl k b.serial e a b.row b.off (descWords x b.serial)

/-- CHAINED_DESCRIPTOR_ARRIVAL (R216, R219): it is checked as it arrives; one that arrives while the channel aborts or
stops is discarded. -/
def execChainedDescriptorArrival (c : ChId) (ecc : Ecc) (s : State) : Out :=
  let d := c.die.val
  let cl := c.cl.val
  let k := c.ch.val
  onDie d s <|
    match (getChan s d cl k).fetch with
    | none => s
    | some b =>
      match readsBack s d cl k b ecc with
      | none => s
      | some (s, b, f) =>
        let s := modChan s d cl k fun x => { x with fetch := none }
        if (getChan s d cl k).aborting || chanState s d cl k = 5 then s
        else
          match f with
          | some (a, e) => chanError s d cl k b.serial e a 0 0 (leWords b.got)
          | none =>
            let s := if chanState s d cl k = 2 then setChan s d cl k 1 else s
            checkDesc s d cl k ⟨leWords b.got, b.src, none, none, .clean⟩ true

/-- DMA_AGE_EXPIRY (R211): a channel that requests goes to level 3 until its next grant. -/
def execDmaAgeExpiry (c : ChId) (s : State) : Out :=
  let d := c.die.val
  let cl := c.cl.val
  let k := c.ch.val
  onDie d s <|
    if rf s (dmaBlk d cl) DMA_AGE_CYCLES ≠ 0 && (requestOf s d cl k).isSome then
      modChan s d cl k fun x => { x with aged := true }
    else s

/-- The first request of a burst that has no answer yet, with the burst (R219); a burst on the module has none before its
return. -/
def unanswered (s : State) (d c k : Nat) (b : Burst) : Option (Burst × Word) :=
  let a := if b.writing then b.dst else b.src
  let l := reqs a b.len
  if addrMod a = lmod s d && !noLmod s d then some (b, a)
  else (((List.range l.length).zip l).find? fun p => (answersOf s d (unitDma c k) ((b.tag + p.1) % 2 ^ 32) 1).isNone).map
    fun p => (b, p.2.1)

/-- DMA_TIMEOUT (R219): the oldest request without an answer is the failing one; what is outstanding is abandoned.  With
nothing of a descriptor outstanding, a CH_DQ entry whose read has no answer becomes a failed one. -/
def execDmaTimeout (c : ChId) (s : State) : Out :=
  let d := c.die.val
  let cl := c.cl.val
  let k := c.ch.val
  let x := getChan s d cl k
  let forget := fun s : State =>
    { s with arrived := s.arrived.filter fun a => !(a.1 == d && a.2.1 == unitDma cl k) }
  onDie d s <|
    if rf s (dmaBlk d cl) DMA_TIMEOUT_US = 0 then s
    else match (x.bursts ++ x.fetch.toList).findSome? (unanswered s d cl k) with
      | some (b, a) =>
        let s := forget (modChan s d cl k fun x => { x with bursts := [], fetch := none })
        chanError s d cl k b.serial 6 a b.row b.off (descWords x b.serial)
      | none =>
        match x.queue.find? fun q => q.tag.any fun t => (answersOf s d (unitDma cl k) t 1).isNone with
        | none => s
        | some q =>
          let (s, f) := failedDesc s q.addr 6
          modChan s d cl k fun x => { x with queue := x.queue.map fun y => if y = q then f else y }

/-! Pause, abort and clear (R217, R218). -/

/-- A channel emptied and IDLE; a descriptor that entered its queue meanwhile starts it again (R218, R220). -/
def toIdle (s : State) (d c k : Nat) : State :=
  let s := modChan s d c k fun x => { x with head := none, fetch := none, finishing := [], aborting := false }
  if (getChan s d c k).queue.isEmpty then setChan s d c k 0 else applyPause (setChan s d c k 1) d c k

/-- CLEAR of a STOPPED channel (R218). -/
def clearStopped (s : State) (d c k : Nat) : State :=
  let s := modChan s d c k fun x => { x with queue := [] }
  toIdle (wf (wf s (chBlk d c k) CH_STATUS_ERR 0) (chBlk d c k) CH_ERRADDR 0) d c k

/-- The descriptor that CH_DESC shows at a pause, and its position: the head, else the front of the queue (R217). -/
def pauseShow (s : State) (d c k : Nat) : State :=
  let x := getChan s d c k
  match x.head with
  | some h => showPos (showDesc s d c k h.desc.words) d c k h.row h.off
  | none =>
    match x.queue with
    | q :: _ => showPos (showDesc s d c k q.words) d c k 0 0
    | [] => showPos s d c k 0 0

/-- CHANNEL_DRAIN_COMPLETE (R217-R220). -/
def execChannelDrainComplete (c : ChId) (s : State) : Out :=
  let d := c.die.val
  let cl := c.cl.val
  let k := c.ch.val
  let x := getChan s d cl k
  onDie d s <|
    if !x.bursts.isEmpty || x.fetch.isSome then s
    else if chanState s d cl k = 5 then
      (if x.aborting then clearStopped s d cl k else setChan s d cl k 6)
    else if x.aborting then toIdle s d cl k
    else if chanState s d cl k = 3 then setChan (pauseShow s d cl k) d cl k 4
    else s

/-- PAUSE no longer set: PAUSING returns to RUN, PAUSED to RUN, and either to IDLE with nothing to do (R217, R220). -/
def resume (s : State) (d c k : Nat) : State :=
  if pauseBit s d c k then s
  else if chanState s d c k = 3 then settleChan (setChan s d c k 1) d c k
  else if chanState s d c k = 4 then setChan s d c k (if chanQuiet (getChan s d c k) then 0 else 1)
  else s

/-- PAUSE written (R217). -/
def pauseWrite (s : State) (d c k : Nat) (b : Bool) : State :=
  let s := wf s (chBlk d c k) CH_CTRL_PAUSE (b2n b)
  resume (applyPause s d c k) d c k

/-- PAUSEALL written (R217). -/
def pauseallWrite (s : State) (d c : Nat) (b : Bool) : State :=
  let s := wf s (dmaBlk d c) DMA_CTRL_PAUSEALL (b2n b)
  (List.range 32).foldl (fun s k => resume (applyPause s d c k) d c k) s

/-- ABORT written (R218, R220): issue stops, the queue and what has not completed are discarded without a signal, and
the drain leads to IDLE; in STOPPING and STOPPED it acts as CLEAR once the drain is complete. -/
def abortWrite (s : State) (d c k : Nat) : State :=
  if chanState s d c k = 0 then s
  else if chanState s d c k = 6 then clearStopped s d c k
  else if chanState s d c k = 5 then modChan s d c k fun x => { x with aborting := true }
  else modChan s d c k fun x => { x with aborting := true, queue := [], head := none, finishing := [] }

/-- CLEAR written (R218). -/
def clearWrite (s : State) (d c k : Nat) : State := if chanState s d c k = 6 then clearStopped s d c k else s

/-- Channel counters cleared (R222). -/
def chClear (s : State) (d c k : Nat) : State := clearRegs s (chBlk d c k) (offsets 0x68 0x98)

/-- DMA_CTRL.CLRCNT (R221). -/
def dmaClear (s : State) (d c : Nat) : State :=
  (List.range 32).foldl (fun s k => chClear s d c k) (setReg s (dmaBlk d c + 0x20) 0)

/-- DMA_CLRCNT (R221). -/
def execDmaClrcnt (c : ClId) (s : State) : Out :=
  onUnit c.die.val (dmaBlk c.die.val c.cl.val + 8) (fset 0 DMA_CTRL_CLRCNT 1) s (dmaClear s c.die.val c.cl.val)

/-- PAUSEALL (R217). -/
def execPauseall (c : ClId) (b : Bool) (s : State) : Out :=
  onUnit c.die.val (dmaBlk c.die.val c.cl.val + 8) (fset 0 DMA_CTRL_PAUSEALL (b2n b)) s
    (pauseallWrite s c.die.val c.cl.val b)

/-- A write of a channel's CH_CTRL that sets one field: the channel, the field and its value, and the effect. -/
def onChan (c : ChId) (f : Fld) (v : Nat) (s t : State) : Out :=
  let a := chBlk c.die.val c.cl.val c.ch.val
  onUnit c.die.val a (fset (regWord s a) f v) s t

/-- CH_CLRCNT (R222). -/
def execChClrcnt (c : ChId) (s : State) : Out := onChan c CH_CTRL_CLRCNT 1 s (chClear s c.die.val c.cl.val c.ch.val)

/-- CH_PAUSE (R217). -/
def execChPause (c : ChId) (b : Bool) (s : State) : Out :=
  onChan c CH_CTRL_PAUSE (b2n b) s (pauseWrite s c.die.val c.cl.val c.ch.val b)

/-- CH_ABORT (R218). -/
def execChAbort (c : ChId) (s : State) : Out := onChan c CH_CTRL_ABORT 1 s (abortWrite s c.die.val c.cl.val c.ch.val)

/-- CH_CLEAR (R218). -/
def execChClear (c : ChId) (s : State) : Out := onChan c CH_CTRL_CLEAR 1 s (clearWrite s c.die.val c.cl.val c.ch.val)

/-- CH_DQ (R204). -/
def execChDq (c : ChId) (addr : Word) (s : State) : Out :=
  onUnit c.die.val (chBlk c.die.val c.cl.val c.ch.val + 0x10) addr s (chDqWrite s c.die.val c.cl.val c.ch.val addr)

end Sys2Proof.Machine
end

