-- ==== Sys2Proof/Machine/UnitIo.lean ====
section
/-! DEFINITION. Reads and writes of the units that are neither core nor DMA engine (compressor, reduction unit, prefix
lookup unit, Steelyard node), on the module and on other modules (R193, R195, R326), and pairwise trees (R143). -/

namespace Sys2Proof.Machine

/-- Unit number of a prefix lookup unit (log 23). -/
def unitPlu : Nat := 0x3000

/-- Unit number of a Steelyard node (log 23). -/
def unitSty : Nat := 0x3002

/-- Unit number of the die controller (log 23). -/
def unitDie : Nat := 0x4000

/-- Cluster of a compressor; the other units belong to the die. -/
def unitCluster (u : Nat) : Option Nat := if 0x2000 ≤ u && u < 0x2010 then some (u - 0x2000) else none

/-- Why a request of a unit brings nothing. -/
inductive Denied where
  /-- its answer has not arrived yet -/
  | waiting
  /-- unmapped, or (`fence`) refused by the stall fence -/
  | refused (a : Word) (fence : Bool)
  | poison (a : Word)
  deriving DecidableEq, Repr

/-- A range sent to another module as requests, with a record of the TAGs (R209, R326). -/
def askRange (s : State) (d sunit : Nat) (write : Bool) (a : Word) (len : Nat) (bs : List Byte) : State :=
  let l := pieces (len / 256 + 2) a len
  let tag := (getDie s d).tag % 2 ^ 32
  let s := l.foldl (fun s p =>
    if write then sendWrite s d sunit p.1 (slice bs (p.1 - a).toNat p.2) else sendRead s d sunit p.1 p.2) s
  { s with asked := s.asked ++ [⟨d, sunit, write, a, len, tag, l.length⟩] }

/-- The answer to a read of another module: it is asked for once, and there when every packet has been answered. -/
def readAway (s : State) (d sunit : Nat) (a : Word) (len : Nat) : State × Except Denied (List Byte) :=
  match s.asked.find? fun q => q.die == d && q.sunit == sunit && !q.write && q.addr == a && q.len == len with
  | none => (askRange s d sunit false a len [], .error .waiting)
  | some q =>
    match answersOf s d sunit q.tag q.n with
    | none => (s, .error .waiting)
    | some ans =>
      match firstFailed (pieces (len / 256 + 2) a len) ans with
      | some (x, 2) => (s, .error (.refused x false))
      | some (x, _) => (s, .error (.poison x))
      | none => (s, .ok (ans.map (·.2)).flatten)

/-- A read by a unit of cluster `c` of die `d` under a fence (R193, R195). -/
def unitReadF (permits : Nat → Nat → Bool) (s : State) (d c sunit : Nat) (a : Word) (len : Nat) :
    State × Except Denied (List Byte) :=
  if len = 0 then (s, .ok [])
  else match checkTargetF permits s d c none false a len with
    | .fenced => (s, .error (.refused a true))
    | .unmapped x => (s, .error (.refused x false))
    | .away _ _ _ => readAway s d sunit a len
    | .here t l =>
      if routeDown s d t then (s, .error (.poison a))
      else match memRead (carry s d (unitCluster sunit) t l len false) t l len .clean with
        | (s, .poison u) => (s, .error (.poison (globalAddr s t u)))
        | (s, .bytes bs) => (s, .ok bs)

/-- A read under the fence of the unit's own die. -/
def unitRead (s : State) (d c sunit : Nat) (a : Word) (len : Nat) : State × Except Denied (List Byte) :=
  unitReadF (fencePermits s d) s d c sunit a len

/-- Several reads: all are issued, and the first that is denied decides. -/
def unitReads (d c sunit : Nat) : State → List (Word × Nat) → State × Except Denied (List (List Byte))
  | s, [] => (s, .ok [])
  | s, (a, len) :: rest =>
    let (s, r) := unitRead s d c sunit a len
    let (s, rs) := unitReads d c sunit s rest
    match r, rs with
    | .ok b, .ok bs => (s, .ok (b :: bs))
    | .error e, _ => (s, .error e)
    | .ok _, .error e => (s, .error e)

/-- The first of several write ranges that the router refuses, or that comes back with poison (R181, R186, R193). -/
def unitWriteBadF (permits : Nat → Nat → Bool) (s : State) (d c : Nat) (l : List (Word × Nat)) : Option Denied :=
  l.findSome? fun p =>
    if p.2 = 0 then none
    else match checkTargetF permits s d c none true p.1 p.2 with
      | .fenced => some (.refused p.1 true)
      | .unmapped x => some (.refused x false)
      | .away _ _ _ => none
      | .here t l => if writeLost s d t l p.2 then some (.poison p.1) else none

/-- The same under the fence of the unit's own die. -/
def unitWriteBad (s : State) (d c : Nat) (l : List (Word × Nat)) : Option Denied :=
  unitWriteBadF (fencePermits s d) s d c l

/-- A write by a unit that the router lets through; over a down edge nothing arrives (R186). -/
def unitWrite (s : State) (d sunit : Nat) (a : Word) (bs : List Byte) : State :=
  if bs = [] then s
  else if !noLmod s d && addrMod a = lmod s d then
    let t := addrDie a
    let l := addrLocal a
    if routeDown s d t then s else poke (carry s d (unitCluster sunit) t l bs.length true) t l bs
  else
    askRange (match unitCluster sunit with
      | some c => countOut s d c bs.length
      | none => s) d sunit true a bs.length bs

/-- The requests of a unit forgotten, with their answers. -/
def unitForget (s : State) (d sunit : Nat) : State :=
  let s := s.asked.foldl (fun s q => if q.die = d && q.sunit = sunit then dropAnswers s d sunit q.tag q.n else s) s
  { s with asked := s.asked.filter fun q => !(q.die == d && q.sunit == sunit) }

/-- The reads of a unit forgotten, with their answers. -/
def unitForgetReads (s : State) (d sunit : Nat) : State :=
  let s := s.asked.foldl
    (fun s q => if q.die = d && q.sunit = sunit && !q.write then dropAnswers s d sunit q.tag q.n else s) s
  { s with asked := s.asked.filter fun q => !(q.die == d && q.sunit == sunit && !q.write) }

/-- Number of the packets that a change of state has sent from a die. -/
def packetsSent (s t : State) (d : Nat) : Nat := (getDie t d).tag - (getDie s d).tag

/-- TAG of the next packet of a die. -/
def nextTag (s : State) (d : Nat) : Nat := (getDie s d).tag % 2 ^ 32

/-- The requests of a unit among `n` TAGs from `tag` forgotten, with their answers. -/
def forgetTags (s : State) (d sunit tag n : Nat) : State :=
  { dropAnswers s d sunit tag n with
    asked := s.asked.filter fun q => !(q.die == d && q.sunit == sunit && (List.range n).any fun i => q.tag == (tag + i) % 2 ^ 32) }

/-- The worst STATUS among answers: 2, an address error, before 1, poison, before 0 (R326). -/
def worstStatus (l : List (Nat × List Byte)) : Nat :=
  if l.any (fun a => a.1 == 2) then 2 else if l.any (fun a => a.1 != 0) then 1 else 0

/-- How the writes of a unit to other modules stand: none while one is unanswered; else whether all were done. -/
def unitAcked (s : State) (d sunit : Nat) : Option Bool :=
  let l := s.asked.filter fun q => q.die == d && q.sunit == sunit && q.write
  let r := l.map fun q => answersOf s d sunit q.tag q.n
  if r.all (·.isSome) then some (r.all fun a => (a.getD []).all fun x => x.1 == 0) else none

/-! Pairwise trees (R143). -/

/-- One level of the tree: adjacent results combined, an absent side passing the other unchanged. -/
def treeLevel (op : Num → Num → Num × Flags) : List Num → List Num × Flags
  | a :: b :: l =>
    let (x, f) := op a b
    let (xs, g) := treeLevel op l
    (x :: xs, f.or g)
  | l => (l, Flags.none)

/-- The tree over positions; `fuel` bounds its levels.  Nothing at all gives +0. -/
def treeFold (op : Num → Num → Num × Flags) : Nat → List Num → Num × Flags
  | 0, l => (l.headD (Num.zero false), Flags.none)
  | fuel + 1, l =>
    if l.length ≤ 1 then (l.headD (Num.zero false), Flags.none)
    else
      let (xs, f) := treeLevel op l
      let (x, g) := treeFold op fuel xs
      (x, f.or g)

/-- Sum rounded to the extended form (R163). -/
def addX (a b : Num) : Num × Flags := roundX (nadd a b)

/-- A tree sum in the extended form. -/
def sumX (l : List Num) : Num × Flags := treeFold addX (Nat.log2 l.length + 1) l

/-- A square, exact and rounded to the extended form (R303). -/
def squareX (x : Num) : Num × Flags := roundX (nmul x x)

/-- The BF16 pair that holds an extended value (R165). -/
def pairOf (v : Num) : Nat × Nat × Flags :=
  let (hi, f) := rnBF16 v
  match bf16 hi with
  | .fin n m e =>
    let (lo, g) := rnBF16 (nsub v (.fin n m e))
    (hi, lo, f.or g)
  | _ => (hi, 0, f)

/-- A pair as it is read (R165): hi + lo rounded to the extended form, with the flags of that. -/
def pairRead (hi lo : Nat) : Num × Flags := roundX (nadd (bf16 hi) (bf16 lo))

/-- The value of a pair. -/
def pairVal (hi lo : Nat) : Num := (pairRead hi lo).1

/-! The stall of a die. -/

/-- The stall whose dies include die `d`, by number. -/
def stallOf (s : State) (d : Nat) : Option (Nat × StallSt) :=
  s.torter.stalls.findSome? fun p =>
    match p.2 with
    | some x => if x.dies.getLsbD d then some (p.1, x) else none
    | none => none

/-- The current step of a die (R270): the step open on its stall. -/
def dieStep (s : State) (d : Nat) : Option Nat := (stallOf s d).bind fun p => p.2.openStep

end Sys2Proof.Machine
end

