-- ==== Sys2Proof/Machine/Compressor.lean ====
section
/-! DEFINITION. The gradient compressor (R294-R300): MV.CQ, the modes of packing, the packed shard. -/

namespace Sys2Proof.Machine

/-- The fields of a compressor command (R294). -/
structure GcDesc where
  mode : Nat
  segl : Nat
  k : Nat
  site : BitVec 16
  n : Nat
  rtid : BitVec 32
  gaddr : Word
  raddr : Word
  taddr : Word
  out : Word
  ibase : Nat
  outlim : Nat
  deriving DecidableEq, Repr

/-- The command that 64 bytes spell. -/
def gcDescOf (w : List Word) : GcDesc :=
  let b := (wd w 0).toNat
  { mode := bits b 3 0, segl := bits b 7 4, k := bits b 31 16, site := BitVec.ofNat 16 (bits b 47 32),
    n := bits (wd w 1).toNat 31 0, rtid := BitVec.ofNat 32 (bits (wd w 1).toNat 63 32), gaddr := wd w 2,
    raddr := wd w 3, taddr := wd w 4, out := wd w 5, ibase := bits (wd w 6).toNat 49 0,
    outlim := bits (wd w 7).toNat 31 0 }

/-- Segment length S. -/
def GcDesc.seg (g : GcDesc) : Nat := 2 ^ (g.segl + 10)

/-- Number of segments. -/
def GcDesc.segs (g : GcDesc) : Nat := ceilDiv g.n g.seg

/-- Elements of a segment. -/
def GcDesc.count (g : GcDesc) (j : Nat) : Nat := if j + 1 = g.segs then g.n - g.seg * (g.segs - 1) else g.seg

/-- K_s of a segment (R294). -/
def GcDesc.keep (g : GcDesc) (j : Nat) : Nat := ceilDiv (g.k * g.count j) g.seg

/-- Whether the mode is a top-k mode. -/
def GcDesc.topk (g : GcDesc) : Bool := g.mode == 1 || g.mode == 2

/-- A size rounded up to a multiple of 4. -/
def up4 (n : Nat) : Nat := ceilDiv n 4 * 4

/-- Worst-case bytes of a segment record (R298). -/
def GcDesc.worst (g : GcDesc) (j : Nat) : Nat :=
  match g.mode with
  | 0 => up4 (2 * g.count j)
  | 1 => 4 + 4 * g.keep j
  | 2 => 4 + 8 * g.keep j
  | _ => up4 (ceilDiv (g.count j) 8 + 2 * ceilDiv (g.count j) 32)

/-- Worst-case packed size: full segments are alike (R298). -/
def GcDesc.worstSize (g : GcDesc) : Nat := 32 + (g.segs - 1) * g.worst 0 + g.worst (g.segs - 1)

/-- The check of a command at issue (R294): reserved bits, and the fields that its mode does not use, are no encoding and
are ignored (R11). -/
def gcDescOk (w : List Word) : Bool :=
  let g := gcDescOf w
  g.mode ≤ 3 && g.segl ≤ 6 && (!g.topk || (1 ≤ g.k && g.k ≤ g.seg / 4))
    && 1 ≤ g.n && g.n ≤ 2 ^ 30
    && g.gaddr.toNat % 2 == 0 && g.raddr.toNat % 2 == 0 && (g.mode != 2 || g.taddr.toNat % 2 == 0)
    && g.out.toNat % 32 == 0 && decide (g.worstSize ≤ g.outlim)

/-- A 64-byte command read by the sequencer at issue, over the links where its address names another module (R174):
address, then alignment, then poison (R89, R244, R294); `k` goes on with its words. -/
def cmdRead (s : State) (d n : Nat) (a : Word) (k : State → List Word → Issued) : Issued :=
  match checkTarget s d (n / 16) (some n) false a 64 with
  | .fenced => .fault (countFence s d (n / 16)) fcADDR a
  | .unmapped b => .fault s fcADDR b
  | .away _ _ _ => if a.toNat % 64 ≠ 0 then .fault s fcALIGN a else askRead s d n a 64 fun s bs => k s (leWords bs)
  | .here t l =>
    if a.toNat % 64 ≠ 0 then .fault s fcALIGN a
    else if routeDown s d t then .fault s fcMEM (unitAddr a)
    else match homeRead (carry s d (some (n / 16)) t l 64 false) t l 64 .clean with
      | (s, .poison u) => .fault s fcMEM (globalAddr s t u)
      | (s, .bytes bs) => k s (leWords bs)

/-- MV.CQ at issue (R78, R294, R300). -/
def bodyCq (s : State) (d n pc : Nat) (h : Hdr) (o : SeqOp) : Issued :=
  let q := getGc s d (n / 16)
  if !hasGc s then .fault s fcABSENT 0
  else if 8 ≤ q.length then .hold .queue
  else cmdRead s d n (xaImm s d n o) fun s w =>
    if !gcDescOk w then .fault s fcDESC 0
    else
      let s := setGc s d (n / 16) (q ++ [⟨w, Fin.ofNat 256 n, (keyStep s d n).2⟩])
      .sent (modCore s d n fun c => { c with gcOwed := c.gcOwed ++ [⟨h.sen, h.ssem, pc, .queued⟩] })

/-! Packing. -/

/-- One element as the compressor sees it. -/
structure GcElem where
  a : Num
  /-- LG16 code of |a| (R296) -/
  rank : Nat
  deriving DecidableEq, Repr

/-- Elements a = RN_x(g + r) of codes (R295). -/
def gcElems : List Nat → List Nat → List GcElem × Flags
  | g :: gs, r :: rs =>
    let (a, f) := roundX (nadd (bf16 g) (bf16 r))
    let (l, e) := gcElems gs rs
    (⟨a, (lgEncode a.abs).1⟩ :: l, f.or e)
  | _, _ => ([], Flags.none)

/-- How many codes are at least `t`. -/
def codesFrom (l : List Nat) (t : Nat) : Nat := (l.filter fun c => t ≤ c).length

/-- The highest high byte with at least `k` codes in its bin and above (R297). -/
def topBin (l : List Nat) (k : Nat) : Nat := ((List.range 256).reverse.find? fun b => k ≤ codesFrom l (256 * b)).getD 0

/-- T: the largest code that at least `k` codes reach (R297). -/
def topCode (l : List Nat) (k : Nat) : Nat :=
  let b := 256 * topBin l k
  b + (((List.range 256).reverse.find? fun x => k ≤ codesFrom l (b + x)).getD 0)

/-- Which elements TOPK_EXACT keeps: those above T, then those at T in ascending index; `left` counts the latter. -/
def keepExact (t : Nat) : Nat → List Nat → List Bool
  | _, [] => []
  | left, c :: l =>
    if t < c then true :: keepExact t left l
    else if c = t && left ≠ 0 then true :: keepExact t (left - 1) l
    else false :: keepExact t left l

/-- TOPK_EXACT's selection of a segment (R297). -/
def selectExact (ranks : List Nat) (k : Nat) : List Bool :=
  if codesFrom ranks 1 < k then ranks.map fun c => c != 0
  else
    let t := topCode ranks k
    keepExact t (k - codesFrom ranks (t + 1)) ranks

/-- TOPK_EST's selection: nonzero codes of at least τ in ascending index, up to `left`; whether one was dropped. -/
def keepEst (t : Nat) : Nat → List Nat → List Bool × Bool
  | _, [] => ([], false)
  | left, c :: l =>
    if c ≠ 0 && t ≤ c then
      (if left = 0 then (false :: (keepEst t 0 l).1, true)
       else (true :: (keepEst t (left - 1) l).1, (keepEst t (left - 1) l).2))
    else (false :: (keepEst t left l).1, (keepEst t left l).2)

/-- τ' (R297). -/
def nextTau (ranks : List Nat) (k : Nat) : Nat :=
  if codesFrom ranks 1 < k then 1
  else
    let b := topBin ranks k
    let a := codesFrom ranks (256 * (b + 1))
    256 * b + 255 - 255 * (k - a) / (codesFrom ranks (256 * b) - a)

/-- What a segment's packing gives. -/
structure GcSeg where
  record : List Byte
  /-- BF16 codes of r' -/
  resid : List Nat
  kept : Nat
  sat : Bool
  flags : Flags
  deriving DecidableEq, Repr

/-- r' of an element (R295, R296): from the exact value, by SR; a nonfinite a leaves +0. -/
def gcResid (kt : Word) (i : Nat) (a x : Num) : Nat × Flags :=
  if a.isNan || a.isInf then (0, Flags.none) else fpEncode fBF16 (some (srBits kt i)) x

/-- Bytes padded to a multiple of 4. -/
def pad4 (l : List Byte) : List Byte := slice l 0 (up4 l.length)

/-- A segment of mode NONE (R296, R298). -/
def packNone (kt : Word) (i0 : Nat) (l : List GcElem) : GcSeg :=
  let vs := l.map fun e => rnBF16 e.a
  let rs := ((List.range l.length).zip (l.zip vs)).map fun p => gcResid kt (i0 + p.1) p.2.1.a (nsub p.2.1.a (bf16 p.2.2.1))
  { record := pad4 (vs.map fun v => leBytes 2 v.1).flatten, resid := rs.map (·.1), kept := 0, sat := false,
    flags := (Flags.all (vs.map (·.2))).or (Flags.all (rs.map (·.2))) }

/-- A segment of a top-k mode with the elements kept (R296, R298). -/
def packTop (kt : Word) (i0 : Nat) (l : List GcElem) (keep : List Bool) (sat : Bool) : GcSeg :=
  let rows := (List.range l.length).zip (l.zip keep)
  let vs := rows.map fun p => if p.2.2 then rnBF16 p.2.1.a else (0, Flags.none)
  let rs := (rows.zip vs).map fun p =>
    gcResid kt (i0 + p.1.1) p.1.2.1.a (if p.1.2.2 then nsub p.1.2.1.a (bf16 p.2.1) else p.1.2.1.a)
  let es := (rows.zip vs).filterMap fun p => if p.1.2.2 then some (leBytes 4 (p.1.1 + 65536 * p.2.1)) else none
  { record := leBytes 4 es.length ++ es.flatten, resid := rs.map (·.1), kept := es.length, sat := sat,
    flags := (Flags.all (vs.map (·.2))).or (Flags.all (rs.map (·.2))) }

/-- Sign bits, element 8b + j in bit j of byte b (R298). -/
def signBytes (l : List Bool) : List Byte :=
  (chunks 8 l.length l).map fun c =>
    BitVec.ofNat 8 (((List.range 8).map fun j => if c.getD j false then 2 ^ j else 0).sum)

/-- μ of a block of |a| (R296): RN_bf16(RN_x(t / m)). -/
def signMu (l : List GcElem) : Nat × Flags :=
  let (t, f) := sumX (l.map fun e => e.a.abs)
  let (q, g) := roundX (ndiv 48 t (.fin false l.length 0))
  let (c, h) := rnBF16 q
  (c, (f.or g).or h)

/-- A segment of mode SIGN (R296, R298). -/
def packSign (kt : Word) (i0 : Nat) (l : List GcElem) : GcSeg :=
  let mus := (chunks 32 l.length l).map signMu
  let rs := ((List.range l.length).zip l).map fun p =>
    let mu := bf16 ((mus.map (·.1)).getD (p.1 / 32) 0)
    gcResid kt (i0 + p.1) p.2.a (nsub p.2.a (if p.2.a.isNeg then mu.neg else mu))
  { record := pad4 (signBytes (l.map fun e => e.a.isNeg) ++ (mus.map fun m => leBytes 2 m.1).flatten),
    resid := rs.map (·.1), kept := 0, sat := false,
    flags := (Flags.all (mus.map (·.2))).or (Flags.all (rs.map (·.2))) }

/-- One segment packed (R296, R297). -/
def packSeg (g : GcDesc) (kt : Word) (j : Nat) (l : List GcElem) (tau : Nat) : GcSeg :=
  let i0 := g.ibase + j * g.seg
  let ranks := l.map (·.rank)
  match g.mode with
  | 0 => packNone kt i0 l
  | 1 => packTop kt i0 l (selectExact ranks (g.keep j)) false
  | 2 =>
    let (k, sat) := keepEst tau (2 * g.keep j) ranks
    packTop kt i0 l k sat
  | _ => packSign kt i0 l

/-- The 16-bit codes of bytes. -/
def codes16 (bs : List Byte) : List Nat := (chunks 2 bs.length bs).map leNat

/-- Header of a packed shard (R298). -/
def shardHeader (g : GcDesc) (nonfinite : Bool) (total step : Nat) : List Byte :=
  [1, BitVec.ofNat 8 (g.mode + 16 * g.segl), BitVec.ofNat 8 (b2n nonfinite), 0] ++ leBytes 4 g.n ++ leBytes 4 total
    ++ leBytes 4 step ++ List.replicate 16 0

/-- What a command computes from its operands: packed shard, residuals, thresholds, and what its status records. -/
structure GcResult where
  packed : List Byte
  resid : List Byte
  taus : List Byte
  nonfinite : Bool
  sat : Bool
  kept : Nat
  flags : Flags
  deriving DecidableEq, Repr

/-- A command performed on its operands' bytes (R295-R298). -/
def gcPerform (g : GcDesc) (kt : Word) (step : Word) (gs rs taus : List Byte) : GcResult :=
  let (es, f) := gcElems (codes16 gs) (codes16 rs)
  let parts := chunks g.seg es.length es
  let segs := ((List.range parts.length).zip parts).map fun p => packSeg g kt p.1 p.2 (leAt taus (2 * p.1) 2)
  let nf := es.any fun e => e.a.isNan || e.a.isInf
  let body := (segs.map (·.record)).flatten
  { packed := shardHeader g nf (32 + body.length) (step.toNat % 2 ^ 32) ++ body
    resid := (segs.map fun x => (x.resid.map fun c => leBytes 2 c).flatten).flatten
    taus := (((List.range parts.length).zip parts).map fun p => leBytes 2 (nextTau (p.2.map (·.rank)) (g.keep p.1))).flatten
    nonfinite := nf
    sat := segs.any (·.sat)
    kept := (segs.map (·.kept)).sum
    flags := f.or (Flags.all (segs.map (·.flags))) }

/-- The core's debt for its first command still in the queue is marked. -/
def gcMark (s : State) (d cl n : Nat) (g : GcStage) : State :=
  let waiting := ((getGc s d cl).filter fun x => x.n.val == n).length
  modCore s d n fun c =>
    if waiting ≤ c.gcOwed.length then
      { c with gcOwed := c.gcOwed.modify (c.gcOwed.length - waiting) fun o => { o with stage := g } }
    else c

/-- A command has ended on a refusal or poison (R310): GC_STATUS.ERR and a notice of the exchange class. -/
def gcError (s : State) (d cl code : Nat) : State :=
  raiseNotice (setBit s (gcBlk d cl) GC_STATUS_ERR) d 1 (lmod s d) d 0 5 code

/-- The command at the front of the queue ends so before it has written anything: it does not complete, so that its
core's waits end at the watchdog (R310). -/
def gcFail (s : State) (d cl : Nat) (x : GcCmd) (code : Nat) : State :=
  let s := gcMark (gcError s d cl code) d cl x.n.val .failed
  setGc (unitForgetReads s d (unitGc cl)) d cl (getGc s d cl).tail

/-- GC_COMMAND (R295): the command at the front of the queue is performed once its operands have been read (log 26: all
reads and checks come before its first write). -/
def execGcCommand (c : ClId) (s : State) : Out :=
  let d := c.die.val
  let cl := c.cl.val
  onClocked d s <|
    if !hasGc s then s
    else match getGc s d cl with
      | [] => s
      | x :: rest =>
        let g := gcDescOf x.words
        let tl := if g.mode = 2 then 2 * g.segs else 0
        let (s, r) := unitReads d cl (unitGc cl) s [(g.gaddr, 2 * g.n), (g.raddr, 2 * g.n), (g.taddr, tl)]
        match r with
        | .error .waiting => s
        | .error (.refused _ fence) => gcFail (if fence then countFence s d cl else s) d cl x 2
        | .error (.poison _) => gcFail s d cl x 3
        | .ok bs =>
          let kt := kTensor (keyStep s d x.n.val).1 x.step g.rtid g.site
          let y := gcPerform g kt x.step (bs.getD 0 []) (bs.getD 1 []) (bs.getD 2 [])
          match unitWriteBad s d cl [(g.out, y.packed.length), (g.raddr, 2 * g.n), (g.taddr, tl)] with
          | some (.refused _ fence) => gcFail (if fence then countFence s d cl else s) d cl x 2
          | some _ => gcFail s d cl x 3
          | none =>
            let s := unitForgetReads s d (unitGc cl)
            let s0 := s
            let s := unitWrite s d (unitGc cl) g.raddr y.resid
            let s := if g.mode = 2 then unitWrite s d (unitGc cl) g.taddr y.taus else s
            let s := unitWrite s d (unitGc cl) g.out y.packed
            let b := gcBlk d cl
            let s := setFlags s b 0 y.flags
            let s := if y.nonfinite then setBit s b GC_STATUS_NONFINITE else s
            let s := if y.sat then setBit s b GC_STATUS_SAT else s
            let s := bump s b GC_CNT_IN (g.n * (if g.mode = 1 then 3 else 1))
            let s := bump (bump s b GC_CNT_KEPT y.kept) b GC_CNT_BYTES y.packed.length
            setGc (gcMark s d cl x.n.val (.writing (nextTag s0 d) (packetsSent s0 s d))) d cl rest

/-- GC_CTRL.CLRCNT (R310); nothing where the unit is absent. -/
def gcClear (s : State) (d c : Nat) : State := if hasGc s then clearRegs s (gcBlk d c) (offsets 0x10 0x20) else s

/-- GC_CLRCNT (R310). -/
def execGcClrcnt (c : ClId) (s : State) : Out :=
  onUnit c.die.val (gcBlk c.die.val c.cl.val + 8) 1 s (gcClear s c.die.val c.cl.val)

end Sys2Proof.Machine
end

