-- ==== Sys2Proof/Machine/Exchange.lean ====
section
/-! DEFINITION. The reduction unit (R301-R304) and the Steelyard (R305-R307). -/

namespace Sys2Proof.Machine

/-! The exchange table (R301). -/

/-- An entry of the exchange table. -/
structure RedEntry where
  g : Nat
  mode : Nat
  segl : Nat
  n : Nat
  stride : Nat
  inbox : Word
  out : Word
  done : Word
  deriving DecidableEq, Repr

/-- The entry that 64 bytes spell. -/
def redEntryOf (b : List Byte) : RedEntry :=
  { g := leAt b 4 2, mode := bits (leAt b 6 1) 3 0, segl := bits (leAt b 6 1) 7 4, n := leAt b 8 4,
    stride := leAt b 12 4, inbox := leWord (slice b 16 8), out := leWord (slice b 24 8), done := leWord (slice b 32 8) }

/-- Address of the exchange table. -/
def redTable (s : State) (d : Nat) : Word := regWord s (redBlk d + 0x10)

/-- Entries of the table: none when no table is set or its FORMAT is not 0x01 (log 27). -/
def redCount (s : State) (d : Nat) : Nat :=
  let a := redTable s d
  if a = 0 then 0
  else match unitRead s d 0 unitRed a 64 with
    | (_, .ok b) => if leAt b 0 1 = 1 then leAt b 4 4 else 0
    | _ => 0

/-- Bytes of the arrival array, padded (R293). -/
def arrBytes (g : Nat) : Nat := ceilDiv (8 * g) 4096 * 4096

/-- Slot `r` of an inbox (R293). -/
def redSlot (e : RedEntry) (r : Nat) : Word := e.inbox + BitVec.ofNat 64 (arrBytes e.g + r * e.stride)

/-! Decoding a packed shard (R298, R302). -/

/-- Whether a contribution's header agrees with the entry, the step and the arrival word (R302). -/
def headerOk (e : RedEntry) (step len : Nat) (b : List Byte) : Bool :=
  leAt b 0 1 == 1 && leAt b 1 1 == e.mode + 16 * e.segl && leAt b 4 4 == e.n && leAt b 12 4 == step
    && leAt b 8 4 == len

/-- A list with entries (index, code) put in their places. -/
def scatterCodes (n : Nat) (es : List (Nat × Nat)) : List Nat :=
  (List.range n).map fun i => ((es.find? fun p => p.1 == i).map (·.2)).getD 0

/-- BF16 codes of the elements of a segment record and the bytes it takes (R298). -/
def unpackSeg (mode cnt : Nat) (b : List Byte) : List Nat × Nat :=
  match mode with
  | 0 => (codes16 (slice b 0 (2 * cnt)), up4 (2 * cnt))
  | 3 =>
    let sb := ceilDiv cnt 8
    ((List.range cnt).map fun i =>
        let mu := leAt b (sb + 2 * (i / 32)) 2
        if bits (leAt b (i / 8) 1) (i % 8) (i % 8) = 1 then mu ^^^ 0x8000 else mu,
      up4 (sb + 2 * ceilDiv cnt 32))
  | _ =>
    let k := leAt b 0 2
    let es := (List.range k).map fun j => (leAt b (4 + 4 * j) 2, leAt b (6 + 4 * j) 2)
    (scatterCodes cnt es, 4 + 4 * k)

/-- Codes of all elements of a packed shard's records; `fuel` bounds the segments. -/
def unpackSegs (mode seg : Nat) : Nat → Nat → List Byte → List Nat
  | 0, _, _ => []
  | fuel + 1, n, b =>
    if n = 0 then []
    else
      let (cs, k) := unpackSeg mode (min seg n) b
      cs ++ unpackSegs mode seg fuel (n - min seg n) (b.drop k)

/-- The values of a contribution (R302). -/
def unpackShard (e : RedEntry) (b : List Byte) : List Num :=
  (unpackSegs e.mode (2 ^ (e.segl + 10)) e.n e.n (b.drop 32)).map bf16

/-! Reduction of an entry (R302, R303). -/

/-- An element's contributions summed in slot order and rounded (R302): the code of OUT. -/
def redElement (xs : List Num) : Nat × Flags :=
  let (v, f) := sumX xs
  let (c, g) := rnBF16 v
  (c, f.or g)

/-- Square sum of the codes written (R303). -/
def squareSum (cs : List Nat) : Num × Flags :=
  let sq := cs.map fun c => squareX (bf16 c)
  let (v, f) := sumX (sq.map (·.1))
  (v, (Flags.all (sq.map (·.2))).or f)

/-- An entry that ends with an error (R304): no done word, RED_STATUS.ERR, a notice of the exchange class. -/
def redFail (s : State) (d i kind acc code : Nat) : State :=
  let s := setBit s (redBlk d) RED_STATUS_ERR
  let r := getRed s d
  let s := unitForgetReads (setRed s d { r with ended := r.ended ++ [i] }) d unitRed
  raiseNotice s d kind acc (if kind = 0 then 0 else d) 0 5 code

/-- An entry that ends on a request denied. -/
def redDenied (s : State) (d i : Nat) (e : Denied) : State :=
  match e with
  | .waiting => s
  | .refused _ _ => redFail s d i 1 (lmod s d) 2
  | .poison _ => redFail s d i 1 (lmod s d) 3

/-- An entry is done (R302): its done word is written and acknowledged. -/
def redDone (s : State) (d i : Nat) (sq : Num) : State :=
  let r := getRed s d
  let s := setRed s d { r with done := tset r.done i sq }
  wf s (redBlk d) RED_DONE_COUNT (getRed s d).done.length

/-- A write of entry `i` goes out; where it goes to another module, `w` records what waits for its acknowledgement, else
`k` goes on. -/
def redWrite (s : State) (d : Nat) (a : Word) (bs : List Byte) (w : RedWait) (k : State → State) : State :=
  let t := unitWrite s d unitRed a bs
  if packetsSent s t d = 0 then k t
  else
    let r := getRed t d
    setRed t d { r with wait := r.wait ++ [{ w with tag := nextTag s d, n := packetsSent s t d }] }

/-- The done word follows the acknowledgement of OUT (R191, R302). -/
def redWord (s : State) (d : Nat) (w : RedWait) : State :=
  redWrite s d w.done (wordBytes w.word) { w with last := true } fun s => redDone s d w.entry w.sq

/-- An entry whose writes to another module await acknowledgement: the done word follows OUT, and ends the entry; a write
answered with an error ends it without one (R302, R304). -/
def redSettle (s : State) (d : Nat) (w : RedWait) : State :=
  match answersOf s d unitRed w.tag w.n with
  | none => s
  | some l =>
    let r := getRed s d
    let s := setRed (forgetTags s d unitRed w.tag w.n) d { r with wait := r.wait.filter (· ≠ w) }
    match worstStatus l with
    | 0 => if w.last then redDone s d w.entry w.sq else redWord s d w
    | st => redFail s d w.entry 1 (lmod s d) (if st = 2 then 2 else 3)

/-- An entry all of whose contributions have arrived and been read: sums, OUT, the square sum, and the done word once OUT
is acknowledged (R302, R303). -/
def redReduce (s : State) (d i step : Nat) (e : RedEntry) (shards : List (List Byte)) : State :=
  let xs := shards.map (unpackShard e)
  let els := (List.range e.n).map fun j => redElement (xs.map fun x => x.getD j (Num.zero false))
  let cs := els.map (·.1)
  let nf := cs.any fun c => (bf16 c).isNan || (bf16 c).isInf
  let (sq, f) := squareSum cs
  match unitWriteBad s d 0 [(e.out, 2 * e.n), (e.done, 8)] with
  | some x => redDenied s d i x
  | none =>
    let s := setFlags s (redBlk d) 0 ((Flags.all (els.map (·.2))).or f)
    let s := bump s (redBlk d) RED_CNT_ADD ((e.g - 1) * e.n)
    let w : RedWait := ⟨i, sq, e.done, BitVec.ofNat 64 (step * 2 ^ 32 + b2n nf), false, 0, 0⟩
    redWrite s d e.out (cs.map fun c => leBytes 2 c).flatten w fun s => redWord s d w

/-- Whether the unit no longer polls entry `i`: it is done, has ended with an error, or has only its writes left. -/
def redOver (r : RedSt) (i : Nat) : Bool := (tlookup r.done i).isSome || r.ended.contains i || r.wait.any fun w => w.entry == i

/-- One poll of entry `i` (R302): its arrival array is read, and it is reduced once every word shows the step. -/
def redEntry (s : State) (d step i : Nat) : State :=
  if redOver (getRed s d) i then s
  else match unitRead s d 0 unitRed (redTable s d + BitVec.ofNat 64 (64 + 64 * i)) 64 with
    | (s, .error x) => redDenied s d i x
    | (s, .ok b) =>
      let e := redEntryOf b
      let s := bump s (redBlk d) RED_CNT_POLL 1
      match unitRead s d 0 unitRed e.inbox (8 * e.g) with
      | (s, .error x) => redDenied s d i x
      | (s, .ok arr) =>
        let words := (List.range e.g).map fun k => leAt arr (8 * k) 8
        if words.all fun w => w / 2 ^ 32 == step then
          match unitReads d 0 unitRed s ((List.range e.g).map fun k => (redSlot e k, words.getD k 0 % 2 ^ 32)) with
          | (s, .error x) => redDenied s d i x
          | (s, .ok shards) =>
            if (shards.zip words).all fun p => headerOk e step (p.2 % 2 ^ 32) p.1 then
              unitForgetReads (redReduce s d i step e shards) d unitRed
            else redFail (unitForgetReads s d unitRed) d i 1 (lmod s d) 1
        else unitForgetReads s d unitRed

/-! The Steelyard (R305-R307). -/

/-- Positions of the set bits of a mask among `n`, ascending. -/
def members (n : Nat) (p : Nat → Bool) : List Nat := (List.range n).filter p

/-- Dies of the stall that take part on each module (R305). -/
def styDies (s : State) (d : Nat) : List Nat := members 36 fun k => (regWord s (dieBlk d + 0x28)).getLsbD k

/-- Modules of the stall (R305). -/
def styMods (s : State) (d : Nat) : List Nat :=
  members 512 fun m => (regWord s (dieBlk d + 0x30 + m / 64 * 8)).getLsbD (m % 64)

/-- Positions whose results a node at position `p` of `n` takes in, lowest level first (R143). -/
def treeKids (n p : Nat) : List Nat :=
  (((List.range 10).takeWhile fun l => p % 2 ^ (l + 1) == 0).map fun l => p + 2 ^ l).filter (· < n)

/-- Position of the node that takes in the result of position `p`, which is not 0. -/
def treeParent (p : Nat) : Nat := ((List.range 10).find? fun l => p % 2 ^ (l + 1) != 0).elim 0 fun l => p - 2 ^ l

/-- The value of a message (R165). -/
def styVal (m : StyMsg) : Num := pairVal m.hi.toNat m.lo.toNat

/-- A node's own value combined with those of the positions it takes in, lowest level first; none while one is
missing. -/
def styCombine (parts : List StyMsg) (system : Bool) : List Nat → Num × Flags → Option (Num × Flags)
  | [], v => some v
  | k :: ks, (v, f) =>
    match parts.find? fun m => m.system == system && m.pos == k with
    | none => none
    | some m =>
      let (x, g) := addX v (styVal m)
      styCombine parts system ks (x, f.or g)

/-- A partial as it travels (R305). -/
def styMsgOf (step : Nat) (system : Bool) (pos : Nat) (v : Num) : StyMsg × Flags :=
  let (hi, lo, f) := pairOf v
  (⟨BitVec.ofNat 32 step, system, pos, BitVec.ofNat 16 hi, BitVec.ofNat 16 lo⟩, f)

/-- M / √S with a sticky last bit (R306): M = m × 2^a finite and positive, S = n × 2^b not 0. -/
def invSqrtNum (m : Nat) (a : Int) (n : Nat) (b : Int) : Num :=
  let e := 2 * a - b
  let sh := 2 * Nat.log2 n + 128 + (e % 2).toNat
  let q := m * m * 2 ^ sh / n
  let r := isqrt q
  .fin false (2 * r + b2n (r * r != q || m * m * 2 ^ sh % n != 0)) ((e - sh) / 2 - 1)

/-- The clipping factor (R306): RN to BF16 of min(1, M / √S) with the flags of that rounding (R61), and whether it is
NONFINITE. -/
def clipOf (mx : Nat) (total : Num) : Nat × Bool × Flags :=
  let rn := fun x => ((rnBF16 x).1, false, (rnBF16 x).2)
  match total with
  | .fin _ n b =>
    if n = 0 then (0x3F80, false, Flags.none)
    else match bf16 mx with
      | .fin x m a =>
        let c := invSqrtNum m a n b
        if !x && ncmp c Num.one < 0 then rn (if m = 0 then Num.zero false else c)
        else if x then rn c.neg else (0x3F80, false, Flags.none)
      | .inf x => (if x then 0xFF80 else 0x3F80, false, Flags.none)
      | .nan _ => (0x7FC0, false, Flags.none)
  | _ => (0, true, Flags.none)

/-- A node takes the clipping factor (R306): its registers, the broadcast word, and the forwarding to the nodes whose
results it took in. -/
def styReceive (s : State) (d : Nat) (m : StyDown) : State :=
  let b := styBlk d
  let s := wf (wf s b STY_CLIP_STEP m.step.toNat) b STY_CLIP_CLIP m.clip.toNat
  let s := wf (wf s b STY_SUM_SUMH m.sumh.toNat) b STY_SUM_SUML m.suml.toNat
  let s := wf (wf s b STY_STATUS_NONFINITE (b2n m.nonfinite)) b STY_STATUS_CLIPVALID 1
  let word := leBytes 8 (m.step.toNat * 2 ^ 32 + b2n m.nonfinite * 65536 + m.clip.toNat)
  let a := regWord s (b + 0x28)
  let s := if (unitWriteBad s d 0 [(a, 8)]).isSome then s else unitWrite s d unitSty a word
  let ds := styDies s d
  let ms := styMods s d
  let p := (indexOf (· == d) ds).getD 0
  let q := (indexOf (· == lmod s d) ms).getD 0
  let s := if p = 0 then
      (treeKids ms.length q).foldl (fun s k => emit s (.steelyardDown true (ms.getD k 0) m)) s
    else s
  (treeKids ds.length p).foldl (fun s k => emit s (.steelyardDown false (ds.getD k 0) m)) s

/-- A node that has all its inputs sends its partial up, or at the root computes c and starts it down (R305, R306). -/
def styTry (s : State) (d step : Nat) : State :=
  let y := getSty s d
  match y.own with
  | none => s
  | some own =>
    if y.sent then s
    else
      let ds := styDies s d
      let ms := styMods s d
      let p := (indexOf (· == d) ds).getD 0
      match styCombine y.parts false (treeKids ds.length p) (own, Flags.none) with
      | none => s
      | some (v, f) =>
        if p ≠ 0 then
          let (m, g) := styMsgOf step false p v
          emit (setFlags (setSty s d { y with sent := true }) (styBlk d) 0 (f.or g))
            (.steelyard false (ds.getD (treeParent p) 0) m)
        else
          let q := (indexOf (· == lmod s d) ms).getD 0
          match styCombine y.parts true (treeKids ms.length q) (v, f) with
          | none => s
          | some (v, f) =>
            let (m, g) := styMsgOf step true q v
            let s := setFlags (setSty s d { y with sent := true }) (styBlk d) 0 (f.or g)
            if q ≠ 0 then emit s (.steelyard true (ms.getD (treeParent q) 0) m)
            else
              let t := if m.hi.toNat % 32768 < 0x7F80 || v.isNan then v else .inf false
              let (c, nf, h) := clipOf (rf s (styBlk d) STY_MAXNORM_M) t
              styReceive (setFlags s (styBlk d) 0 h) d ⟨BitVec.ofNat 32 step, BitVec.ofNat 16 c, nf, m.hi, m.lo⟩

/-- The die's own partial, once every entry has its done word (R305): the square sums in entry order.  DESIGN CHOICE (log
136): a square sum passes from the reduction unit to the node of its own die in the extended form; R305 rounds to a BF16
pair what travels between nodes. -/
def styOwn (s : State) (d step : Nat) : State :=
  let y := getSty s d
  let r := getRed s d
  let n := redCount s d
  if y.own.isSome || (stallOf s d).isNone || decide (r.done.length < n) then s
  else
    let (v, f) := sumX ((List.range n).map fun i => tget (Num.zero false) r.done i)
    styTry (setFlags (setSty s d { y with own := some v }) (styBlk d) 0 f) d step

/-- RED_POLL (R302): in an open step every entry not done is polled, and the die's partial follows the last. -/
def execRedPoll (d : Die) (s : State) : Out :=
  onFabric d.val s <|
    match dieStep s d.val with
    | none => s
    | some step =>
      let st := step % 2 ^ 32
      let s := (getRed s d.val).wait.foldl (fun s w => redSettle s d.val w) s
      styOwn ((List.range (redCount s d.val)).foldl (fun s i => redEntry s d.val st i) s) d.val st

/-- The lowest inbox slot whose arrival word is missing, as the module of its address (R474). -/
def redMissing (s : State) (d step i : Nat) : Option Nat :=
  match unitRead s d 0 unitRed (redTable s d + BitVec.ofNat 64 (64 + 64 * i)) 64 with
  | (s, .ok b) =>
    let e := redEntryOf b
    match unitRead s d 0 unitRed e.inbox (8 * e.g) with
    | (_, .ok arr) =>
      ((List.range e.g).find? fun k => leAt arr (8 * k) 8 / 2 ^ 32 != step).map fun k => addrMod (redSlot e k)
    | _ => none
  | _ => none

/-- RED_TIMEOUT (R304): entries whose arrival array is still incomplete end with an error. -/
def execRedTimeout (d : Die) (s : State) : Out :=
  let k := d.val
  onFabric k s <|
    match dieStep s k with
    | none => s
    | some step =>
      if rf s (redBlk k) RED_TIMEOUT_US = 0 then s
      else (List.range (redCount s k)).foldl (fun s i =>
        if redOver (getRed s k) i then s
        else match redMissing s k (step % 2 ^ 32) i with
          | none => s
          | some m => redFail (setBit s (redBlk k) RED_STATUS_TIMEOUT) k i 0 m 4) s

/-- Whether a Steelyard message is of the die's current step; another is counted and discarded (R307). -/
def styFresh (s : State) (d : Nat) (step : BitVec 32) : Bool :=
  (dieStep s d).any fun n => n % 2 ^ 32 == step.toNat

/-- A message discarded (R307). -/
def styStale (s : State) (d : Nat) : State := bump (setBit s (styBlk d) STY_STATUS_STALE) (styBlk d) STY_CNT_STALE 1

/-- STY_MESSAGE (R305, R307). -/
def execStyMessage (d : Die) (m : StyMsg) (s : State) : Out :=
  onFabric d.val s <|
    if !styFresh s d.val m.step then styStale s d.val
    else
      let y := getSty s d.val
      let s := setSty (bump s (styBlk d.val) STY_CNT_MSG 1) d.val { y with parts := y.parts ++ [m] }
      styTry (styOwn s d.val m.step.toNat) d.val m.step.toNat

/-- STY_BROADCAST (R306, R307). -/
def execStyBroadcast (d : Die) (m : StyDown) (s : State) : Out :=
  onFabric d.val s <|
    if !styFresh s d.val m.step then styStale s d.val
    else styReceive (bump s (styBlk d.val) STY_CNT_MSG 1) d.val m

/-- RED_CTRL.CLRCNT (R311). -/
def redClear (s : State) (d : Nat) : State := clearRegs s (redBlk d) (offsets 0x30 0x38)

/-- STY_CTRL.CLRCNT (R312). -/
def styClear (s : State) (d : Nat) : State := clearRegs s (styBlk d) (offsets 0x30 0x38)

/-- RED_CLRCNT (R311). -/
def execRedClrcnt (d : Die) (s : State) : Out := onUnit d.val (redBlk d.val + 8) 1 s (redClear s d.val)

/-- STY_CLRCNT (R312). -/
def execStyClrcnt (d : Die) (s : State) : Out := onUnit d.val (styBlk d.val + 8) 1 s (styClear s d.val)

end Sys2Proof.Machine
end

