-- ==== Sys2Proof/Machine/Prefix.lean ====
section
/-! DEFINITION. The prefix tree and the prefix lookup unit (R240-R250): MV.PQ, the lookup, its result and completion. -/

namespace Sys2Proof.Machine

/-- Index that names no node (R241). -/
def noNode : Nat := 0xFFFFFFFF

/-- MV.PQ at issue (R78, R244, R249): the request goes to the unit of the die's row with the die's fence registers. -/
def bodyPq (s : State) (d n pc : Nat) (h : Hdr) (o : SeqOp) : Issued :=
  let u := d / 6 * 6
  if !s.secure.variant.plu then .fault s fcABSENT 0
  else if 32 ≤ (getPlu s u).queue.length then .hold .queue
  else cmdRead s d n (xaImm s d n o) fun s w =>
    if routeDown s d u then .late s fcMEM 0
    else
      let b := dieBlk d
      let q : PluReq := ⟨w, Fin.ofNat 36 d, Fin.ofNat 256 n, regWord s (b + 0x28),
        (List.range 8).map fun i => regWord s (b + 0x30 + 8 * i)⟩
      let p := getPlu s u
      let s := setPlu (countOut (countHops s d u 64) d (n / 16) 64) u { p with queue := p.queue ++ [q] }
      let s := bump s (pluBlk u) PLU_ACCEPTED 1
      .sent (modCore s d n fun c => { c with pluOwed := c.pluOwed ++ [⟨h.sen, h.ssem, pc, true, 0, 0⟩] })

/-! The request (R245). -/

/-- TREE. -/
def pqTree (w : List Word) : Word := wd w 0
/-- QTOK. -/
def pqQtok (w : List Word) : Word := wd w 1
/-- QLEN. -/
def pqQlen (w : List Word) : Nat := bits (wd w 2).toNat 31 0
/-- EPOCH. -/
def pqEpoch (w : List Word) : Nat := bits (wd w 2).toNat 63 32
/-- RES. -/
def pqRes (w : List Word) : Word := wd w 3
/-- MAXPAGES. -/
def pqMax (w : List Word) : Nat := bits (wd w 4).toNat 15 0

/-- The conditions whose breach is STATUS 0x03 (R246). -/
def pqOk (w : List Word) : Bool :=
  bits (wd w 4).toNat 63 23 == 0 && wd w 5 == 0 && wd w 6 == 0 && wd w 7 == 0
    && 1 ≤ pqMax w && pqMax w ≤ 4096 && pqQlen w ≤ 2 ^ 24

/-- Fence of the die that issued the request (R247). -/
def pqPermits (r : PluReq) (m t : Nat) : Bool := (wd r.mods (m / 64)).getLsbD (m % 64) && r.dies.getLsbD t

/-! The tree (R240-R242). -/

/-- A node (R241). -/
structure PluNode where
  hash : Word
  parent : Nat
  child : Nat
  sib : Nat
  unit : Nat
  sz : Nat
  valid : Bool
  epoch : Nat
  tok : Word
  pos0 : Nat
  deriving DecidableEq, Repr

/-- The node that 64 bytes spell. -/
def pluNodeOf (b : List Byte) : PluNode :=
  { hash := leWord (slice b 0 8), parent := leAt b 8 4, child := leAt b 12 4, sib := leAt b 16 4, unit := leAt b 20 4,
    sz := bits (leAt b 24 1) 3 0, valid := bits (leAt b 25 1) 0 0 == 1, epoch := leAt b 28 4,
    tok := leWord (slice b 32 8), pos0 := leAt b 40 4 }

/-- Whether a node's reserved fields are 0, its size code is defined and its indices lie in the tree (R241, R246: 0x02):
0xFFFF_FFFF stands for no first child, for no next sibling, and in the root alone for no parent. -/
def pluNodeOk (root : Bool) (nn : Nat) (b : List Byte) : Bool :=
  let x := pluNodeOf b
  let idx := fun i => i == noNode || i < nn
  bits (leAt b 24 1) 7 4 == 0 && bits (leAt b 25 1) 7 1 == 0 && leAt b 26 2 == 0
    && slice b 44 20 == List.replicate 20 0 && (root || x.sz ≤ 12)
    && ((root && x.parent == noNode) || x.parent < nn) && idx x.child && idx x.sib

/-- c(j) of 16 tokens (R240). -/
def chunkHash (toks : List Nat) : Word :=
  mix (((List.range 16).map fun i => mix (BitVec.ofNat 64 (toks.getD i 0) ^^^ BitVec.ofNat 64 (i * 2 ^ 32))).foldl
    (· ^^^ ·) 0)

/-- The token hash carried over further chunks (R240). -/
def hashOn (h : Word) (toks : List Nat) : Word :=
  (chunks 16 toks.length toks).foldl (fun h c => mix (h ^^^ chunkHash c)) h

/-- The little-endian U32s of bytes. -/
def u32s (b : List Byte) : List Nat := (chunks 4 b.length b).map leNat

/-- A lookup under way. -/
structure PluWalk where
  s : State
  pos : Nat
  h : Word
  node : Nat
  entries : List Nat
  visits : Nat
  collide : Nat
  cmp : Nat

/-- How a lookup ends: a STATUS (plus 256 where the stall fence refused a read), or none while a read of another module
is unanswered. -/
abbrev PluEnd := Option Nat

/-- STATUS of a denied read (R246). -/
def deniedStatus : Denied → PluEnd
  | .waiting => none
  | .refused _ fence => some (if fence then 260 else 4)
  | .poison _ => some 5

/-- Page-table entry of a matched page (R226, R246). -/
def pluEntry (pos : Nat) (x : PluNode) : Nat := pos * 2 ^ 40 + 2 ^ 37 + 2 ^ 36 + x.sz * 2 ^ 32 + x.unit

/-- What trying a node as the next child finds. -/
inductive PluTry where
  | take
  | skip
  | collision
  | stop (e : PluEnd)
  deriving DecidableEq, Repr

/-- The test of one child (R242): the fields, then the hash over the query, then the tokens. -/
def pluTest (r : PluReq) (u : Nat) (w : PluWalk) (x : PluNode) : PluWalk × PluTry × Word :=
  let t := 16 * 2 ^ x.sz
  if !(x.valid && x.epoch == pqEpoch r.words && x.pos0 == w.pos && w.pos + t ≤ pqQlen r.words) then (w, .skip, w.h)
  else match unitReadF (pqPermits r) w.s u 0 unitPlu (pqQtok r.words + BitVec.ofNat 64 (4 * w.pos)) (4 * t) with
    | (s, .error e) => ({ w with s := s }, .stop (deniedStatus e), w.h)
    | (s, .ok q) =>
      let h := hashOn w.h (u32s q)
      if h ≠ x.hash then ({ w with s := s }, .skip, w.h)
      else match unitReadF (pqPermits r) s u 0 unitPlu x.tok (4 * t) with
        | (s, .error e) => ({ w with s := s }, .stop (deniedStatus e), w.h)
        | (s, .ok k) =>
          let w := { w with s := s, cmp := w.cmp + t }
          if k = q then (w, .take, h) else ({ w with collide := w.collide + 1 }, .collision, w.h)

/-- The walk from candidate child `c` on (R242); `fuel` exceeds the nodes that may be visited. -/
def pluWalk (r : PluReq) (u nn : Nat) : Nat → PluWalk → Nat → PluWalk × PluEnd
  | 0, w, _ => (w, some 2)
  | fuel + 1, w, c =>
    if c = noNode then (w, some 0)
    else if nn ≤ c || nn ≤ w.visits then (w, some 2)
    else match unitReadF (pqPermits r) w.s u 0 unitPlu (pqTree r.words + BitVec.ofNat 64 (64 + 64 * c)) 64 with
      | (s, .error e) => ({ w with s := s }, deniedStatus e)
      | (s, .ok b) =>
        let w := { w with s := s, visits := w.visits + 1 }
        let x := pluNodeOf b
        if !pluNodeOk false nn b then (w, some 2)
        else match pluTest r u w x with
          | (w, .stop e, _) => (w, e)
          | (w, .take, h) =>
            if w.entries.length = pqMax r.words then (w, some 1)
            else
              pluWalk r u nn fuel
                { w with pos := w.pos + 16 * 2 ^ x.sz, h := h, node := c, entries := w.entries ++ [pluEntry w.pos x] }
                x.child
          | (w, _, _) => pluWalk r u nn fuel w x.sib

/-- The lookup of a request (R242, R246). -/
def pluLookup (s : State) (u : Nat) (r : PluReq) : PluWalk × PluEnd :=
  let w : PluWalk := ⟨s, 0, 0, 0, [], 0, 0, 0⟩
  if !pqOk r.words then (w, some 3)
  else match unitReadF (pqPermits r) s u 0 unitPlu (pqTree r.words) 64 with
    | (s, .error e) => ({ w with s := s }, deniedStatus e)
    | (s, .ok b) =>
      let nn := leAt b 16 4
      let w := { w with s := s, h := leWord (slice b 8 8) }
      if leAt b 0 1 ≠ 1 || leAt b 1 7 ≠ 0 || slice b 20 44 ≠ List.replicate 44 0 || nn = 0 then (w, some 2)
      else match unitReadF (pqPermits r) s u 0 unitPlu (pqTree r.words + 64) 64 with
        | (s, .error e) => ({ w with s := s }, deniedStatus e)
        | (s, .ok b) =>
          let w := { w with s := s, visits := 1 }
          if !pluNodeOk true nn b then (w, some 2) else pluWalk r u nn (nn + 1) w (pluNodeOf b).child

/-- The header of a result (R246). -/
def pluHeader (st matched entries node : Nat) : List Byte :=
  [BitVec.ofNat 8 st, 0, 0, 0] ++ leBytes 4 matched ++ leBytes 4 entries ++ leBytes 4 node ++ List.replicate 48 0

/-- A request that ends without a signal, its result write having failed (R247). -/
def pluWriteFailed (s : State) (u : Nat) (r : PluReq) : State :=
  let s := bump (setBit s (pluBlk u) PLU_STATUS_ERR) (pluBlk u) PLU_DONE 1
  let s := raiseNotice s u 4 (lmod s u) r.die.val r.n.val 4 0x10
  let p := getPlu s u
  setPlu (unitForget s u unitPlu) u { p with finished := none, header := [] }

/-- The fence of the issuing die refused a request of the unit: it counts at the router of the requesting core
(R194, R247). -/
def pluFenced (s : State) (r : PluReq) (fence : Bool) : State :=
  if fence then countFence s r.die.val (r.n.val / 16) else s

/-- The header goes last, once every entry is acknowledged (R191, R246). -/
def pluSendHeader (s : State) (u : Nat) (r : PluReq) : State :=
  let p := getPlu s u
  match p.header, unitAcked s u unitPlu with
  | [], _ => s
  | _, none => s
  | _, some false => pluWriteFailed s u r
  | h, some true => unitWrite (setPlu (unitForget s u unitPlu) u { p with header := [] }) u unitPlu (pqRes r.words) h

/-- PLU_LOOKUP (R242, R246, R247): the oldest request is performed and its result written, entries first and header
last. -/
def execPluLookup (d : Die) (s : State) : Out :=
  let u := d.val
  onFabric u s <|
    if !hasPlu s u then s
    else
      let p := getPlu s u
      match p.finished, p.queue with
      | none, r :: rest =>
        match pluLookup s u r with
        | (w, none) => w.s
        | (w, some e) =>
          let st := e % 256
          let b := pluBlk u
          let s := unitForgetReads w.s u unitPlu
          let s := bump (bump (bump s b PLU_CNT_NODES w.visits) b PLU_CNT_COLLIDE w.collide) b PLU_CNT_TOKCMP w.cmp
          let es := if st ≤ 1 then (w.entries.map fun e => leBytes 8 e).flatten else []
          let s := setPlu s u
            { queue := rest, finished := some r
              header := pluHeader st w.pos (if st ≤ 1 then w.entries.length else 0) w.node }
          let s := if st = 4 || st = 5 then
              raiseNotice (setBit s b PLU_STATUS_ERR) u 4 (lmod s u) r.die.val r.n.val 4 st else s
          let s := pluFenced s r (256 ≤ e)
          match unitWriteBadF (pqPermits r) s u 0 [(pqRes r.words, 64 + es.length)] with
          | some x => pluWriteFailed (pluFenced s r (match x with
              | .refused _ f => f
              | _ => false)) u r
          | none => pluSendHeader (unitWrite s u unitPlu (pqRes r.words + 64) es) u r
      | _, _ => s

/-- PLU_COMPLETE (R246): every result write has been acknowledged, and the unit signals the issuing core; entries that
have just been acknowledged are followed by the header first. -/
def execPluComplete (d : Die) (s : State) : Out :=
  let u := d.val
  onFabric u s <|
    match (getPlu s u).finished with
    | none => s
    | some r =>
      if (getPlu s u).header ≠ [] then pluSendHeader s u r
      else match unitAcked s u unitPlu with
      | none => s
      | some false => pluWriteFailed s u r
      | some true =>
        let s := bump (unitForget s u unitPlu) (pluBlk u) PLU_DONE 1
        let s := setPlu s u { getPlu s u with finished := none }
        let w := (wd r.words 4).toNat
        if bits w 22 22 = 1 then semSignal s r.die.val r.n.val (bits w 21 16) 1 7 0 else s

/-- PLU_CTRL.CLRCNT (R250); nothing where the unit is absent. -/
def pluClear (s : State) (d : Nat) : State := if hasPlu s d then clearRegs s (pluBlk d) (offsets 0x20 0x30) else s

/-- PLU_CLRCNT (R250). -/
def execPluClrcnt (d : Die) (s : State) : Out :=
  onUnit d.val (pluBlk d.val + 8) 1 s (pluClear s d.val)

end Sys2Proof.Machine
end

