-- ==== Sys2Proof/Machine/QueueOps.lean ====
section
/-! DEFINITION. The queue instructions (R282-R286): QPOST, DRAW, RETIRE, ACCOUNT, TAKE and SEND. -/

namespace Sys2Proof.Machine

/-- A queue header as read (R282). -/
structure QHdr where
  kind : Nat
  slots : Nat
  put : BitVec 32
  get : BitVec 32
  peer : Word
  peerCount : BitVec 32
  base : Word
  slotBytes : Nat
  deriving DecidableEq, Repr

/-- The header that 64 bytes spell (R282). -/
def qhdrOf (bs : List Byte) : QHdr :=
  { kind := leAt bs 0 1 % 16, slots := leAt bs 2 2, put := BitVec.ofNat 32 (leAt bs 8 4),
    get := BitVec.ofNat 32 (leAt bs 12 4), peer := leWord (slice bs 32 8), peerCount := BitVec.ofNat 32 (leAt bs 16 4),
    base := leWord (slice bs 24 8), slotBytes := leAt bs 40 4 }

/-- The descriptor conditions of R286 on a header for an operation that accepts the kinds given, on core `n`. -/
def qhdrOk (kinds : List Nat) (n : Nat) (bs : List Byte) : Bool :=
  let h := qhdrOf bs
  let stage := h.kind = 3 || h.kind = 4
  leAt bs 1 1 = 1 && bits (leAt bs 0 1) 7 4 = 0 && kinds.contains h.kind && leAt bs 4 2 = n && leAt bs 6 2 = 0
    && 1 ≤ h.slots && h.slots ≤ 4096
    && leAt bs 20 4 = 0 && slice bs 44 20 == List.replicate 20 0
    && (if stage then h.base.toNat % 64 == 0 && h.slotBytes ≠ 0 && h.slotBytes % 64 == 0
        else h.base.toNat % 32 == 0 && h.peerCount = 0 && h.peer = 0 && h.slotBytes = 0)

/-- Encodings of IMM and FUNC that every queue instruction checks (R284-R286): ACCT, REASON and their agreement, reserved
IMM bits. -/
def qEncOk (o : SeqOp) : Bool :=
  let acct := bits o.func.toNat 6 4
  let reason := bits o.imm.toNat 49 48
  acct ≤ 4 && bits o.imm.toNat 47 32 = 0 && bits o.imm.toNat 63 50 = 0
    && (if acct ≤ 1 then reason = 0 else reason ≠ 0)

/-- Account and reason set by a queue instruction whose ACCT is not 0 (R285). -/
def setAcct (s : State) (d n : Nat) (o : SeqOp) : State :=
  let acct := bits o.func.toNat 6 4
  if acct = 0 then s
  else modCore s d n fun c =>
    { c with acct := BitVec.ofNat 2 (acct - 1), reason := BitVec.ofNat 2 (bits o.imm.toNat 49 48) }

/-- Address of the header: XA + IMM[31:0], zero-extended (R284). -/
def qAddr (s : State) (d n : Nat) (o : SeqOp) : Word :=
  xget (getCore s d n) o.xa + BitVec.ofNat 64 (bits o.imm.toNat 31 0)

/-- What the check of a header finds (R286). -/
inductive QFound where
  /-- a field that R286 forbids -/
  | bad (s : State)
  /-- an address refused by R175 or R193, or off this die -/
  | refused (s : State) (a : Word)
  | misaligned (a : Word)
  | poison (s : State) (a : Word)
  /-- the state that has read it, its die-local address and its fields -/
  | ok (s : State) (l : Nat) (h : QHdr)

/-- A read that a queue instruction makes on its own die (R284, R190).  An instruction that another module has been asked
for has made it already. -/
def qRead (s : State) (d n l len : Nat) : State × Rd :=
  match (getCore s d n).loadTag with
  | some _ => (s, .bytes (peek s d l len))
  | none => homeRead (carry s d (some (n / 16)) d l len false) d l len .clean

/-- The header read and checked (R286): address, alignment, poison, then its fields.  A header that the router lets
through but that lies off this die is refused with the address fault (R282: it lies on the owner's die; log 24). -/
def qLook (s : State) (d n : Nat) (kinds : List Nat) (o : SeqOp) : QFound :=
  let a := qAddr s d n o
  match checkTarget s d (n / 16) (some n) false a 64 with
  | .fenced => .refused (countFence s d (n / 16)) a
  | .unmapped b => .refused s b
  | .away _ _ _ => .refused s a
  | .here t l =>
    if t ≠ d then .refused s a
    else if a.toNat % 64 ≠ 0 then .misaligned a
    else match qRead s d n l 64 with
      | (s, .poison u) => .poison s (globalAddr s d u)
      | (s, .bytes bs) => if qhdrOk kinds n bs then .ok s l (qhdrOf bs) else .bad s

/-- A header looked up: its fault, or `k` goes on with its place and fields. -/
def qFind (s : State) (d n : Nat) (kinds : List Nat) (o : SeqOp) (k : State → Nat → QHdr → Issued) : Issued :=
  match qLook s d n kinds o with
  | .bad s => .fault s fcDESC 0
  | .refused s a => .fault s fcADDR a
  | .misaligned a => .fault s fcALIGN a
  | .poison s a => .late s fcMEM a
  | .ok s l h => k s l h

/-- Bytes of a header written by its owner. -/
def qWrite (s : State) (d n l : Nat) (bs : List Byte) : State :=
  poke (carry s d (some (n / 16)) d l bs.length true) d l bs

/-- QPOST with a lane that has room (R284): the entry is read and copied, on another module by a WRITE; PUT and XD follow
the acknowledgement. -/
def qCopy (s : State) (d n pc : Nat) (o : SeqOp) (e : Word) (l : Nat) (h : QHdr) : Issued :=
  let dst := h.base + BitVec.ofNat 64 (h.put.toNat % h.slots * 32)
  let post := fun s => Issued.done
    (setX (qWrite (setAcct s d n o) d n (l + 8) (leBytes 4 (h.put + 1).toNat)) d n o.xd 1) (pc + 16)
  match qRead s d n (localOf e.toNat) 32 with
  | (s, .poison u) => .late s fcMEM (globalAddr s d u)
  | (s, .bytes bs) =>
    match checkTarget s d (n / 16) (some n) true dst 32 with
    | .here t tl =>
      if writeLost s d t tl 32 then .late s fcMEM (unitAddr dst)
      else post (homeWrite (carry s d (some (n / 16)) t tl 32 true) t tl bs)
    | .away _ _ _ => askWrite s d n dst bs post
    | .fenced => .late (countFence s d (n / 16)) fcADDR dst
    | .unmapped b => .late s fcADDR b

/-- QPOST (R284): the entry's own address is checked whatever the state of the lane, and is read only when there is
room; of several faults the lowest code is raised (R90), an address fault naming the entry first. -/
def bodyQpost (s : State) (d n pc : Nat) (o : SeqOp) : Issued :=
  let e := xget (getCore s d n) o.xb
  if !qEncOk o || bits o.func.toNat 1 0 ≠ 0 then .fault s fcILL 0
  else match qLook s d n [1, 2] o, outsideSlot s d n e.toNat 32 with
    | .bad s, _ => .fault s fcDESC 0
    | _, some b => .fault s fcADDR (BitVec.ofNat 64 b)
    | .refused s a, none => .fault s fcADDR a
    | .misaligned a, none => .fault s fcALIGN a
    | .poison s a, none => if e.toNat % 32 ≠ 0 then .fault s fcALIGN e else .late s fcMEM a
    | .ok s l h, none =>
      if e.toNat % 32 ≠ 0 then .fault s fcALIGN e
      else if (h.put - h.get).toNat < h.slots then qCopy s d n pc o e l h
      else .done (setX (setAcct s d n o) d n o.xd 0) (pc + 16)

/-- DRAW (R284): GET is unchanged. -/
def bodyDraw (s : State) (d n pc : Nat) (o : SeqOp) : Issued :=
  if !qEncOk o || bits o.func.toNat 1 0 ≠ 0 then .fault s fcILL 0
  else qFind s d n [1, 2, 4] o fun s _ h =>
    let v := if h.kind = 4 then
        (if (h.peerCount - h.get).toNat = 0 then 0
         else h.base + BitVec.ofNat 64 (h.get.toNat % h.slots * h.slotBytes))
      else (if h.get = h.put then 0 else h.base + BitVec.ofNat 64 (h.get.toNat % h.slots * 32))
    .done (setX (setAcct s d n o) d n o.xd v) (pc + 16)

/-- A count written to the peer's PEERCOUNT (R284), and `k`, the change of the own header, once it is acknowledged: on
the module at once; on another module after the answer to a WRITE.  A fault leaves the header as it was (R286). -/
def peerWrite (s : State) (d n pc : Nat) (peer : Word) (v : BitVec 32) (k : State → State) : Issued :=
  let bs := leBytes 4 v.toNat
  match checkTarget s d (n / 16) (some n) true peer 4 with
  | .fenced => .fault (countFence s d (n / 16)) fcADDR peer
  | .unmapped b => .fault s fcADDR b
  | .here t l =>
    if writeLost s d t l 4 then .late s fcMEM (unitAddr peer)
    else .done (homeWrite (carry (k s) d (some (n / 16)) t l 4 true) t l bs) (pc + 16)
  | .away _ _ _ => askWrite s d n peer bs fun s => .done (k s) (pc + 16)

/-- RETIRE (R284). -/
def bodyRetire (s : State) (d n pc : Nat) (o : SeqOp) : Issued :=
  if !qEncOk o || bits o.func.toNat 1 0 ≠ 1 then .fault s fcILL 0
  else qFind s d n [1, 2, 4] o fun s l h =>
    let g := h.get + 1
    let k := fun s => setX (qWrite (setAcct s d n o) d n (l + 12) (leBytes 4 g.toNat)) d n o.xd (g.setWidth 64)
    if h.kind = 4 then peerWrite s d n pc h.peer g k else .done (k s) (pc + 16)

/-- ACCOUNT (R284): the account only. -/
def bodyAccount (s : State) (d n pc : Nat) (o : SeqOp) : Issued :=
  if !qEncOk o || bits o.func.toNat 1 0 ≠ 2 then .fault s fcILL 0 else .done (setAcct s d n o) (pc + 16)

/-- TAKE (R284): PUT is unchanged. -/
def bodyTake (s : State) (d n pc : Nat) (o : SeqOp) : Issued :=
  if !qEncOk o || bits o.func.toNat 1 0 ≠ 0 then .fault s fcILL 0
  else qFind s d n [3] o fun s _ h =>
    let v := if (h.put - h.peerCount).toNat < h.slots then
        h.base + BitVec.ofNat 64 (h.put.toNat % h.slots * h.slotBytes) else 0
    .done (setX (setAcct s d n o) d n o.xd v) (pc + 16)

/-- SEND (R191, R284): it waits for the condition of R73 before its peer write. -/
def bodySend (s : State) (d n pc : Nat) (o : SeqOp) : Issued :=
  if !qEncOk o || bits o.func.toNat 1 0 ≠ 1 then .fault s fcILL 0
  else qFind s d n [3] o fun s l h =>
    if !visible (getCore s d n) then .hold .fence
    else
      let p := h.put + 1
      peerWrite s d n pc h.peer p fun s =>
        setX (qWrite (setAcct s d n o) d n (l + 8) (leBytes 4 p.toNat)) d n o.xd (p.setWidth 64)

end Sys2Proof.Machine
end

