-- ==== Sys2Proof/Machine/Matrix.lean ====
section
/-! DEFINITION. The matrix engines (R98-R118): checks at issue, accumulation, output rounding and the conveyor slot. -/

namespace Sys2Proof.Machine

/-- What an engine makes of the instruction at the front of its queue. -/
inductive EngRes where
  /-- executed; its completion follows -/
  | done (s : State)
  /-- it cannot start, and nothing of it has happened -/
  | blocked
  /-- it has started and waits for an empty conveyor (R85, R131): the state, and the instruction with its progress -/
  | waiting (s : State) (e : EngOp)
  /-- all but its push to a full conveyor has happened (R85) -/
  | held (s : State)
  /-- a fault during execution (R89) -/
  | fault (s : State) (code : Nat) (faddr : Word)

/-- The MM forms (R99). -/
inductive MmForm where
  | mma
  | mmao
  | mout
  | minit
  deriving DecidableEq, Repr

/-- Whether the form reads A and B. -/
def MmForm.mul : MmForm → Bool
  | .mma | .mmao => true
  | _ => false

/-- Whether the form has an output. -/
def MmForm.out : MmForm → Bool
  | .mmao | .mout => true
  | _ => false

/-- M and K of operand A (R101). -/
def dimsA (ta : Bool) (v : Desc) : Nat × Nat := if ta then (v.cols.toNat, v.rows.toNat) else (v.rows.toNat, v.cols.toNat)

/-- K and N of operand B (R101). -/
def dimsB (tb : Bool) (v : Desc) : Nat × Nat := if tb then (v.cols.toNat, v.rows.toNat) else (v.rows.toNat, v.cols.toNat)

/-- Width group of a format: 1 16-bit, 2 8-bit, 4 4-bit, the size g of its cycle groups (R103, R107); 0 for a format
that is no MM operand. -/
def mmGroup (f : BitVec 4) : Nat :=
  if f = fBF16 || f = fFP16 then 1 else if f = fE4M3 || f = fE5M2 then 2 else if f = fE2M1 then 4 else 0

/-- The conditions on the product's operands (R101, R103, R105). -/
def mmOperandsOk (ta tb : Bool) (a b : Desc) : Bool :=
  let (m, k) := dimsA ta a
  let (k', n) := dimsB tb b
  descOk false true a && descOk false true b && k == k' && m ≤ 32 && n ≤ 32 && k ≤ 16384
    && mmGroup a.fmt != 0 && mmGroup a.fmt == mmGroup b.fmt && !((a.scaled || b.scaled) && ta && tb)

/-- The conditions on an output of M × N (R103). -/
def mmOutputOk (dest : Bool) (o : Desc) : Bool :=
  descOk true (!dest) o && fmtFloat o.fmt && o.rows.toNat ≤ 32 && o.cols.toNat ≤ 32
    && (!o.scaled || (o.bsz.toNat ≤ 1 && blocksWhole o))

/-- The conditions on the source of MINIT. -/
def mmInitOk (a : Desc) : Bool :=
  descOk false true a && mmGroup a.fmt != 0 && a.rows.toNat ≤ 32 && a.cols.toNat ≤ 32

/-- The check of an MM instruction at issue (R100, R102, R103): the fault it raises, if any. -/
def mmCheck (s : State) (d n : Nat) (f : MmForm) (o : MmOp) (a b out : Desc) : Option (Nat × Word) :=
  let inOk := match f with
    | .mma | .mmao => mmOperandsOk o.ta o.tb a b
    | .mout => true
    | .minit => mmInitOk a
  let outOk := !f.out || (mmOutputOk o.dest out
    && (!f.mul || (out.rows.toNat == (dimsA o.ta a).1 && out.cols.toNat == (dimsB o.tb b).2)))
  if 2 ≤ o.ornd.toNat then some (fcILL, 0)
  else if !inOk || !outOk then some (fcDESC, 0)
  else
    let views := (if f = .mout then [] else [a]) ++ (if f.mul then [b] else [])
      ++ (if f.out && !o.dest then [out] else [])
    (views.findSome? (viewOutside s d n)).map fun x => (fcADDR, x)

/-! Accumulation (R106, R107). -/

/-- Key of an accumulator. -/
def accKey (k : Nat) (o : MmOp) : Nat := k * 8 + o.acc.toNat

/-- An accumulator: [] stands for 1,024 elements of +0. -/
def getAcc (c : CoreSt) (key : Nat) : List Num := tget [] c.acc key

/-- Element at row `i` and column `j`. -/
def accAt (l : List Num) (i j : Nat) : Num := l.getD (32 * i + j) (Num.zero false)

/-- Rounding of an accumulator element (R107): 32 significant bits, an infinity from 2^512 on; a NaN keeps its record. -/
def roundAcc (x : Num) : Num :=
  match x with
  | .fin _ _ _ => (roundForm 32 (-100000) 511 x).1
  | _ => x

/-- One cycle group (R107); an element that is NaN keeps its record (R106). -/
def macGroup (acc : Num) (p : List (Num × Num)) : Num :=
  if acc.isNan then acc
  else roundAcc (nadd acc (p.foldl (fun t x => nadd t (nmul x.1 x.2)) (Num.fin true 0 0)))

/-- All cycle groups of one element, ascending k. -/
def macRow (g : Nat) (acc : Num) (as bs : List Num) : Num := (chunks g as.length (as.zip bs)).foldl macGroup acc

/-- Values of a view as rows. -/
def viewRows (s : State) (d : Nat) (v : Desc) : List (List Num) :=
  (List.range v.rows.toNat).map fun r => (List.range v.cols.toNat).map fun c => elemNum s d v r c

/-- Values of a view as columns. -/
def viewCols (s : State) (d : Nat) (v : Desc) : List (List Num) :=
  (List.range v.cols.toNat).map fun c => (List.range v.rows.toNat).map fun r => elemNum s d v r c

/-- The accumulator after a product (R107). -/
def mmAccumulate (s : State) (d : Nat) (o : MmOp) (a b : Desc) (old : List Num) : List Num :=
  let rows := if o.ta then viewCols s d a else viewRows s d a
  let cols := if o.tb then viewRows s d b else viewCols s d b
  (List.range 1024).map fun p =>
    let e := if o.zero then Num.zero false else old.getD p (Num.zero false)
    if p / 32 < rows.length && p % 32 < cols.length then
      macRow (mmGroup a.fmt) e (rows.getD (p / 32) []) (cols.getD (p % 32) [])
    else e

/-- The accumulator after MINIT (R99). -/
def mmInit (s : State) (d : Nat) (o : MmOp) (a : Desc) (old : List Num) : List Num :=
  let rows := if o.ta then viewCols s d a else viewRows s d a
  (List.range 1024).map fun p =>
    let row := rows.getD (p / 32) []
    if p % 32 < row.length then row.getD (p % 32) (Num.zero false) else old.getD p (Num.zero false)

/-- Array cycles of a product (R105, R114). -/
def mmCycles (o : MmOp) (a b : Desc) : Nat :=
  ceilDiv (dimsA o.ta a).2 (mmGroup a.fmt) * (if (o.ta || o.tb) && (a.scaled || b.scaled) then 2 else 1)

/-! Output (R110-R113). -/

/-- The M × N elements of an output, row by row. -/
def accRows (l : List Num) (out : Desc) : List (List Num) :=
  (List.range out.rows.toNat).map fun i => (List.range out.cols.toNat).map fun j => accAt l i j

/-- A list filled to `n` elements with `x`. -/
def fillTo {α : Type} (n : Nat) (x : α) (l : List α) : List α := (l ++ List.replicate (n - l.length) x).take n

/-- The tile of a conveyor slot (R113), with the flags of its rounding. -/
def mmTile (out : Desc) (kt : Word) (sr : Bool) (rows : List (List Num)) : Tile × Flags :=
  let es := ((List.range rows.length).zip rows).map fun p => rowEncode out kt sr p.1 p.2
  ({ fmt := out.fmt, bsz := if out.scaled then out.bsz else 0, scaled := out.scaled, m := out.rows.toNat,
     n := out.cols.toNat,
     elems := fillTo 1024 0 (es.map fun e => fillTo 32 0 (e.2.1.map (BitVec.ofNat 16))).flatten,
     scales := fillTo 64 0x7F (es.map fun e => fillTo 2 0x7F (e.1.map (BitVec.ofNat 8))).flatten },
   Flags.all (es.map fun e => e.2.2))

/-- Slots of a conveyor (R84). -/
def convSlots : Nat := 16

/-- A tile pushed at the tail of conveyor `k`. -/
def convPush (c : CoreSt) (k : Nat) (t : Tile) : CoreSt := { c with conv := tset c.conv k (tget [] c.conv k ++ [t]) }

/-- The output of an accumulator by ME `k` (R110-R112): through DO, to the conveyor, or held while that is full (R85); an
accumulator that is not kept is cleared whole. -/
def mmOutput (s : State) (d n k : Nat) (o : MmOp) (out : Desc) : EngRes :=
  let c := getCore s d n
  let l := getAcc c (accKey k o)
  let sr := o.ornd = 1
  let kt := keyFor s d n out.tid o.site
  let s := if o.keep then s
    else mendUnit (modCore s d n fun c => { c with acc := tset c.acc (accKey k o) [] }) d n (unitAcc (accKey k o))
  if o.dest then
    let (t, f) := mmTile out kt sr (accRows l out)
    let s := setFlags s (meBlk d n k) 0 f
    if (tget [] c.conv k).length < convSlots then .done (modCore s d n fun c => convPush c k t)
    else .held (modCore s d n fun c => { c with held := tset c.held k (some t) })
  else
    let (s, f) := writeRows s d out kt sr 0 (accRows l out) Flags.none
    .done (setFlags s (meBlk d n k) 0 f)

/-- What stops an instruction of an engine as it reads: the state with the errors recorded, and CORE_FADDR (R89). -/
abbrev Unread := State × Word

/-- The product of MMA and MMAO, or what stops its reads: a poisoned operand unit, or the accumulator's parity (R89, R107,
R195); `zero` writes the accumulator whole. -/
def mmProduct (s : State) (d n k : Nat) (o : MmOp) (a b : Desc) : Except Unread State :=
  let (s, bad) := if o.zero then (mendUnit s d n (unitAcc (accKey k o)), false) else readUnits s d n [unitAcc (accKey k o)]
  let s := viewErrors (viewErrors s d a) d b
  if bad then .error (s, 0)
  else match (viewPoison s d a) <|> (viewPoison s d b) with
  | some x => .error (s, x)
  | none =>
    let l := mmAccumulate s d o a b (getAcc (getCore s d n) (accKey k o))
    let s := modCore s d n fun c => { c with acc := tset c.acc (accKey k o) l }
    .ok (bump s (meBlk d n k) ME_CNT_ARRAY (mmCycles o a b))

/-- MMA (R99, R107). -/
def runMma (s : State) (d n k : Nat) (o : MmOp) (e : EngOp) : EngRes :=
  match mmProduct s d n k o e.d0 e.d1 with
  | .error u => .fault u.1 fcMEM u.2
  | .ok s => .done s

/-- MMAO (R99): the product, then the output. -/
def runMmao (s : State) (d n k : Nat) (o : MmOp) (e : EngOp) : EngRes :=
  match mmProduct s d n k o e.d0 e.d1 with
  | .error u => .fault u.1 fcMEM u.2
  | .ok s => mmOutput s d n k o e.d2

/-- MOUT (R99). -/
def runMout (s : State) (d n k : Nat) (o : MmOp) (e : EngOp) : EngRes :=
  match readUnits s d n [unitAcc (accKey k o)] with
  | (s, true) => .fault s fcMEM 0
  | (s, false) => mmOutput s d n k o e.d2

/-- MINIT (R99). -/
def runMinit (s : State) (d n k : Nat) (o : MmOp) (e : EngOp) : EngRes :=
  let s := viewErrors s d e.d0
  match viewPoison s d e.d0 with
  | some x => .fault s fcMEM x
  | none =>
    let l := mmInit s d o e.d0 (getAcc (getCore s d n) (accKey k o))
    .done (modCore s d n fun c => { c with acc := tset c.acc (accKey k o) l })

/-! Queues of the engines (R62, R63). -/

/-- Capacity of an engine queue. -/
def engCap : Nat := 8

/-- Queue `k` of a core: instructions not yet completed. -/
def engQueue (c : CoreSt) (k : Nat) : List EngOp := tget [] c.eng k

/-- Instructions that still wait for their engine. -/
def engWaiting (c : CoreSt) (k : Nat) : Nat := ((engQueue c k).filter fun e => !e.done).length

/-- An instruction put into engine queue `k` with the registers it names captured (R63); with the queue full, issue
stalls. -/
def enqueueOp (s : State) (d n k : Nat) (e : EngOp) : Issued :=
  if engCap ≤ engWaiting (getCore s d n) k then .hold .queue
  else .sent (modCore s d n fun c => { c with eng := tset c.eng k (engQueue c k ++ [e]) })

/-- An MM instruction at issue (R63, R100, R103). -/
def bodyMm (s : State) (d n pc : Nat) (f : MmForm) (i : Instr) (o : MmOp) : Issued :=
  let c := getCore s d n
  let a := aget c o.da
  let b := aget c o.db
  let out := aget c o.dout
  match mmCheck s d n f o a b out with
  | some (code, x) => .fault s code x
  | none => enqueueOp s d n o.me.toNat { ins := i, pc := pc, d0 := a, d1 := b, d2 := out, d3 := Desc.zero, x0 := 0, x1 := 0, x2 := 0, done := false }

/-- ME_CLRCNT (R118). -/
def execMeClrcnt (c : CoreId) (k : Fin 4) (s : State) : Out :=
  onUnit c.die.val (meBlk c.die.val c.n.val k.val + 0x10) 1 s (clearRegs s (meBlk c.die.val c.n.val k.val) (offsets 0x18 0x28))

end Sys2Proof.Machine
end

