-- ==== Sys2Proof/Machine/Lanes.lean ====
section
/-! DEFINITION. What VX and SF instructions share: source and destination checks at issue (R124-R128, R140), reading a
source (R126, R127, R131), writing a destination (R129, R139, R140), and the lane operations (R132-R138). -/

namespace Sys2Proof.Machine

/-! Checks at issue. -/

/-- The descriptor register that a source or destination names. -/
def descNum (k : BitVec 5) : BitVec 4 := k.setWidth 4

/-- Whether elements 0 to `cnt - 1` from t`num` on end at or below t31 (R128). -/
def tileFits (num cnt : Nat) : Bool := num + (cnt - 1) / 1024 ≤ 31

/-- Whether a source's encoding is good for an instruction of `ec` elements (R125, R128); `imm`: KIND 5 is defined. -/
def srcOk (imm : Bool) (ec : Nat) (x : Src) : Bool :=
  match x.kind.toNat with
  | 0 => true
  | 1 => fmtTile x.fmt && tileFits x.num.toNat (bcastCount x.bc ec)
  | 2 => x.num.toNat < 16
  | 3 => x.num.toNat < 4 && x.bc == 0
  | 4 => fmtTile x.fmt
  | 5 => imm && fmtTile x.fmt
  | _ => false

/-- Whether two of three sources name one conveyor, or more than one is of kind 5 (R125, R128). -/
def srcsClash (l : List Src) : Bool :=
  let conv := (l.filter fun x => x.kind == 3).map (·.num)
  (l.filter fun x => x.kind == 5).length > 1 || !decide conv.Nodup

/-- Whether a memory source's view is good: R69, its count, no U32 (R127, R128). -/
def srcViewOk (ec : Nat) (x : Src) (v : Desc) : Bool :=
  x.kind != 2 || (descOk false true v && v.fmt != fU32 && viewCount v == bcastCount x.bc ec)

/-- Whether a destination's encoding is good for `cnt` elements (R124, R128). -/
def destOk (cnt : Nat) (o : VxOp) : Bool :=
  (if o.dkind then o.dnum.toNat < 16 else fmtTile o.dfmt && tileFits o.dnum.toNat cnt)
    && (o.rnd == 0 || (o.rnd == 1 && o.dkind))

/-- Whether a memory destination's view is good (R127, R128, R140). -/
def destViewOk (cnt : Nat) (v : Desc) : Bool :=
  descOk true true v && v.fmt != fU32 && viewCount v == cnt && blocksWhole v

/-- EC (R124). -/
def vxEc (o : VxOp) : Nat := o.ecm1.toNat + 1

/-- The memory views of an instruction in field order: sources of kind 2, then the destination. -/
def vxViews (o : VxOp) (c : CoreSt) : List Desc :=
  ([o.s0, o.s1, o.s2].filter fun x => x.kind == 2).map (fun x => aget c (descNum x.num))
    ++ (if o.dkind then [aget c (descNum o.dnum)] else [])

/-- The fault of a check at issue: the lowest code of an illegal encoding, a bad descriptor and an address outside the
core's own slot (R90, R128). -/
def checkFault (s : State) (d n : Nat) (illegal desc : Bool) (views : List Desc) : Option (Nat × Word) :=
  if illegal then some (fcILL, 0)
  else if desc then some (fcDESC, 0)
  else (views.findSome? (viewOutside s d n)).map fun x => (fcADDR, x)

/-- The captured form of a VX or SF instruction (R63). -/
def vxOp (c : CoreSt) (i : Instr) (pc : Nat) (o : VxOp) : EngOp :=
  { ins := i, pc := pc, d0 := aget c (descNum o.s0.num), d1 := aget c (descNum o.s1.num), d2 := aget c (descNum o.s2.num)
    d3 := aget c (descNum o.dnum), x0 := xget c o.s0.num, x1 := xget c o.s1.num, x2 := xget c o.s2.num, done := false }

/-! Reading sources. -/

/-- A source with what was captured for it. -/
structure SrcIn where
  x : Src
  v : Desc
  r : Word
  imm : Code
  deriving DecidableEq, Repr

/-- The sources of an instruction. -/
def srcsOf (o : VxOp) (e : EngOp) : List SrcIn :=
  [⟨o.s0, e.d0, e.x0, o.imm16⟩, ⟨o.s1, e.d1, e.x1, o.imm16⟩, ⟨o.s2, e.d2, e.x2, o.imm16⟩]

/-- Groups of 1,024 elements (R129). -/
def groupsOf (ec : Nat) : Nat := ceilDiv ec 1024

/-- Elements of group `g`. -/
def groupEls (ec g : Nat) : List Nat := (List.range (min 1024 (ec - 1024 * g))).map fun i => 1024 * g + i

/-- Whether each conveyor source has `k` tiles. -/
def tilesReady (c : CoreSt) (l : List SrcIn) (k : Nat) : Bool :=
  l.all fun p => p.x.kind != 3 || decide (k ≤ (tget [] c.conv p.x.num.toNat).length)

/-- The `k` first tiles of each conveyor source popped. -/
def popTiles (c : CoreSt) (l : List SrcIn) (k : Nat) : CoreSt :=
  l.foldl (fun c p =>
    if p.x.kind = 3 then { c with conv := tset c.conv p.x.num.toNat ((tget [] c.conv p.x.num.toNat).drop k) } else c) c

/-- An empty tile. -/
def Tile.empty : Tile := ⟨0, 0, false, 0, 0, [], [], .clean⟩

/-- Value of a source for element `e` (R119, R126, R127); a conveyor source supplies its group's tile, at the head
(R131). -/
def srcNum (s : State) (d : Nat) (c : CoreSt) (p : SrcIn) (e : Nat) : Num :=
  match p.x.kind.toNat with
  | 1 => fmtDecode p.x.fmt (tileCode c p.x.num.toNat (bcast p.x.bc e))
  | 2 => viewNum s d p.v (bcast p.x.bc e)
  | 3 => tileNum ((tget [] c.conv p.x.num.toNat).headD Tile.empty) (e % 1024)
  | 4 => fmtDecode p.x.fmt (p.r.toNat % 65536)
  | 5 => fmtDecode p.x.fmt p.imm.toNat
  | _ => Num.zero false

/-- First poisoned unit that an element of a view touches. -/
def elemPoison (s : State) (d : Nat) (v : Desc) (k : Nat) : Option Word :=
  let r := k / v.cols.toNat
  let c := k % v.cols.toNat
  ((poisonIn s d (localOf (elemAddr v r c)) (max 1 (fmtBits v.fmt / 8))) <|>
    (if v.scaled then poisonIn s d (localOf (scaleAddr v r c)) 1 else none)).map (globalAddr s d)

/-- First poisoned unit that memory sources touch for some elements (R89, R195). -/
def srcsPoison (s : State) (d : Nat) (l : List SrcIn) (els : List Nat) : Option Word :=
  if s.poison.isEmpty then none
  else l.findSome? fun p => if p.x.kind = 2 then els.findSome? fun e => elemPoison s d p.v (bcast p.x.bc e) else none

/-- The errors that reading memory sources for some elements finds (R195, R198). -/
def srcsErrors (s : State) (d : Nat) (l : List SrcIn) (els : List Nat) : State :=
  if s.upsets.isEmpty then s
  else l.foldl (fun s p =>
    if p.x.kind = 2 then els.foldl (fun s e =>
      let k := bcast p.x.bc e
      let r := k / p.v.cols.toNat
      let c := k % p.v.cols.toNat
      let s := findErrors s d (localOf (elemAddr p.v r c)) (max 1 (fmtBits p.v.fmt / 8))
      if p.v.scaled then findErrors s d (localOf (scaleAddr p.v r c)) 1 else s) s
    else s) s

/-- Tile registers that sources read for some elements. -/
def srcTiles (l : List SrcIn) (els : List Nat) : List Nat :=
  ((l.filter fun p => p.x.kind == 1).map fun p =>
    (els.map fun e => unitTile (p.x.num.toNat + bcast p.x.bc e / 1024)).eraseDups).flatten

/-- The reads of the conveyor slots at the heads of conveyor sources (R195). -/
def readSlots (s : State) (d n : Nat) (l : List SrcIn) : State × Bool :=
  l.foldl (fun (r : State × Bool) (p : SrcIn) =>
    if p.x.kind == 3 then
      let (s, bad) := coreEcc r.1 d n 4 ((tget [] (getCore r.1 d n).conv p.x.num.toNat).headD Tile.empty).upset
      (s, r.2 || bad)
    else r) (s, false)

/-- The reads of a group's sources: the state with what they found, or what stops them (R89, R195). -/
def readSrcs (s : State) (d n : Nat) (l : List SrcIn) (els : List Nat) : Except Unread State :=
  let (s, a) := if (getCore s d n).upsets.isEmpty then (s, false) else readUnits s d n (srcTiles l els)
  let (s, b) := readSlots s d n l
  let s := srcsErrors s d l els
  if a || b then .error (s, 0)
  else match srcsPoison s d l els with
    | some x => .error (s, x)
    | none => .ok s

/-! Writing destinations. -/

/-- Where results go: tile registers, or a view with the key and mode of its rounding. -/
structure DestOut where
  mem : Bool
  num : Nat
  fmt : BitVec 4
  v : Desc
  kt : Word
  sr : Bool
  deriving DecidableEq, Repr

/-- The destination of an instruction (R139). -/
def destOf (s : State) (d n : Nat) (o : VxOp) (e : EngOp) : DestOut :=
  ⟨o.dkind, o.dnum.toNat, o.dfmt, e.d3, keyFor s d n e.d3.tid o.site, o.rnd = 1⟩

/-- Blocks of a scaled view that are complete, from element `k` on, written (R48, R49, R140); what is left waits for
the next group.  `fuel` bounds the blocks. -/
def writeBlocks (d : Nat) (v : Desc) (kt : Word) (sr : Bool) :
    Nat → State → Nat → List Num → Flags → State × Nat × List Num × Flags
  | 0, s, k, xs, f => (s, k, xs, f)
  | fuel + 1, s, k, xs, f =>
    let r := k / v.cols.toNat
    let c := k % v.cols.toNat
    let len := min (blkSize v.bsz) (v.cols.toNat - c)
    if xs = [] || xs.length < len then (s, k, xs, f)
    else
      let srs := (List.range len).map fun i => elemSr kt sr v r (c + i)
      let (sc, cs, g) := blockEncode v.fmt (xs.take len) srs
      let s := writeRun s d v r c cs
      let s := poke s d (localOf (scaleAddr v r c)) [BitVec.ofNat 8 sc]
      writeBlocks d v kt sr fuel s (k + len) (xs.drop len) (f.or g)

/-- Results for elements `k`, `k + 1`, … written; what remains belongs to an incomplete block. -/
def writeDest (s : State) (d n : Nat) (o : DestOut) (k : Nat) (xs : List Num) : State × Nat × List Num × Flags :=
  if o.mem then
    if o.v.scaled then writeBlocks d o.v o.kt o.sr xs.length s k xs Flags.none
    else
      let (s, f) := writeNums s d o.v o.kt o.sr k xs
      (s, k + xs.length, [], f)
  else
    let cs := xs.map (fmtEncode o.fmt none)
    (modCore s d n fun c => putTile o.num 40 c k (cs.map (·.1)), k + xs.length, [], Flags.all (cs.map (·.2)))

/-! Lane operations. -/

/-- Lesser of two numbers; -0 is less than +0 (R137). -/
def numMin (a b : Num) : Num :=
  if a.isNan || b.isNan then .nan false
  else if ncmp a b < 0 || (ncmp a b = 0 && a.isNeg) then a else b

/-- Greater of two numbers (R137). -/
def numMax (a b : Num) : Num :=
  if a.isNan || b.isNan then .nan false
  else if ncmp a b < 0 || (ncmp a b = 0 && a.isNeg) then b else a

/-- Largest integer at or below a number; a zero keeps its sign (R137; log 29). -/
def numFloor (x : Num) : Num :=
  match x with
  | .fin n m e =>
    if m = 0 || 0 ≤ e then x
    else
      let q := m / 2 ^ (-e).toNat
      if m % 2 ^ (-e).toNat = 0 then x
      else if n then .fin true (q + 1) 0 else .fin false q 0
  | _ => x

/-- A flag-free integer code as a number. -/
def codeNum (p : Nat × Flags) : Num × Flags := (.fin false p.1 0, p.2)

/-- A code operand (R137): RN to an integer, saturated; NaN reads 65,535 and sets NV. -/
def codeArg (a : Num) : Nat × Flags :=
  match toIntSat 0 65535 a with
  | some i => (i.toNat, Flags.none)
  | none => (65535, Flags.NV)

/-- An arithmetic result rounded to the working form; a NaN operand gives a NaN without a flag (R39, R120). -/
def laneArith (nan : Bool) (x : Num) : Num × Flags := if nan then (.nan false, Flags.none) else roundW x

/-- a × 2^n with n from b (R137; log 29: an infinite b is clamped). -/
def laneScaleb (a b : Num) : Num × Flags :=
  match toIntSat (-2048) 2048 b with
  | some k => laneArith a.isNan (a.scale k)
  | none => (.nan false, Flags.none)

/-- LGOFF (R137). -/
def laneLgoff (a b : Num) : Num × Flags :=
  let (c, f) := codeArg a
  match toIntSat (-32768) 32767 b with
  | some k =>
    let (x, g) := codeNum (lgScale c k)
    (x, f.or g)
  | none => (.nan false, Flags.NV)

/-- The lane operations (R137). -/
def laneOp (op : Nat) (a b c : Num) : Num × Flags :=
  let nan2 := a.isNan || b.isNan
  let truth := fun p => (if p then Num.one else Num.zero false, Flags.none)
  match op with
  | 0x01 => (a, Flags.none)
  | 0x02 => laneArith nan2 (nadd a b)
  | 0x03 => laneArith nan2 (nsub a b)
  | 0x04 => laneArith nan2 (nmul a b)
  | 0x05 => laneArith (nan2 || c.isNan) (nadd (nmul a b) c)
  | 0x06 => (numMin a b, Flags.none)
  | 0x07 => (numMax a b, Flags.none)
  | 0x08 => (a.abs, Flags.none)
  | 0x09 => (a.neg, Flags.none)
  | 0x0A => (numMin (numMax a b) c, Flags.none)
  | 0x0B => truth (!nan2 && decide (ncmp a b < 0))
  | 0x0C => truth (!nan2 && ncmp a b == 0)
  | 0x0D => (if c.isNan || c.isZero then b else a, Flags.none)
  | 0x0E => (match a with
      | .fin n m e => rnInt n m e
      | x => x, Flags.none)
  | 0x0F => (numFloor a, Flags.none)
  | 0x10 => laneScaleb a b
  | 0x11 => codeNum (lgEncode a)
  | 0x12 => codeNum (lgSquare a)
  | 0x13 => (lgDecode (codeArg a).1, (codeArg a).2)
  | 0x14 =>
    let (x, f) := codeNum (lgAdd (codeArg a).1 (codeArg b).1)
    (x, ((codeArg a).2.or (codeArg b).2).or f)
  | 0x15 => laneLgoff a b
  | _ => (Num.zero false, Flags.none)

/-- How many of operands a, b, c a lane opcode reads; none for a reserved one (R134, R137). -/
def laneArity (op : Nat) : Option Nat :=
  match op with
  | 0x00 => some 0
  | 0x01 | 0x08 | 0x09 | 0x0E | 0x0F | 0x11 | 0x12 | 0x13 => some 1
  | 0x02 | 0x03 | 0x04 | 0x06 | 0x07 | 0x0B | 0x0C | 0x10 | 0x14 | 0x15 => some 2
  | 0x05 | 0x0A | 0x0D => some 3
  | _ => none

/-- Field of a lane operation word (R135). -/
def laneFld (w : BitVec 32) (hi lo : Nat) : Nat := bits w.toNat hi lo

/-- The load check of a lane operation (R134). -/
def laneOk (w : BitVec 32) : Bool :=
  if laneFld w 31 26 = 0x3F then
    laneFld w 18 16 == 0 && fmtTile (BitVec.ofNat 4 (laneFld w 22 19))
  else match laneArity (laneFld w 31 26) with
    | none => false
    | some k =>
      laneFld w 10 0 == 0 && (k < 1 || laneFld w 22 19 != 15) && (k < 2 || laneFld w 18 15 != 15)
        && (k < 3 || laneFld w 14 11 != 15)

/-- Lane inputs of one element: I0-I2, COL, ROW. -/
structure LaneIn where
  i0 : Num
  i1 : Num
  i2 : Num
  e : Nat
  deriving DecidableEq, Repr

/-- The operand that a selector names (R135). -/
def laneSel (w : List Num) (x : LaneIn) (sel : Nat) : Num :=
  match sel with
  | 8 => x.i0
  | 9 => x.i1
  | 10 => x.i2
  | 11 => Num.zero false
  | 12 => Num.one
  | 13 => .fin false (x.e % 32) 0
  | 14 => .fin false (x.e / 32) 0
  | k => w.getD k (Num.zero false)

/-- A lane program on one element (R132, R136, R138). -/
def laneRun : List (BitVec 32) → List Num → LaneIn → Flags → Num × Flags
  | [], w, _, f => (w.getD 0 (Num.zero false), f)
  | op :: rest, w, x, f =>
    let opc := laneFld op 31 26
    if opc = 0 then (w.getD 0 (Num.zero false), f)
    else if opc = 0x3F then
      laneRun rest (w.set (laneFld op 25 23) (fmtDecode (BitVec.ofNat 4 (laneFld op 22 19)) (laneFld op 15 0))) x f
    else
      let (v, g) := laneOp opc (laneSel w x (laneFld op 22 19)) (laneSel w x (laneFld op 18 15))
        (laneSel w x (laneFld op 14 11))
      laneRun rest (w.set (laneFld op 25 23) v) x (f.or g)

/-- Lane temporaries at the start of an element (R138). -/
def laneTemps : List Num := List.replicate 8 (Num.zero false)

/-- Operations that a program executes, LDI and END not counted, at least 1 (R145). -/
def laneCycles (ops : List (BitVec 32)) : Nat :=
  max 1 (((ops.takeWhile fun w => laneFld w 31 26 != 0).filter fun w => laneFld w 31 26 != 0x3F).length)

end Sys2Proof.Machine
end

