-- ==== Sys2Proof/Machine/Vector.lean ====
section
/-! DEFINITION. The vector engine (R119-R147): VOP, VLP, VLPLD, VPERM, VRED and VOPT, at issue and in the engine. -/

namespace Sys2Proof.Machine

/-! At issue (R128). -/

/-- The conditions that VOP, VLP and VRED share. -/
def vxIllegal (o : VxOp) (cnt : Nat) : Bool :=
  let l := [o.s0, o.s1, o.s2]
  !(l.all (srcOk true (vxEc o))) || srcsClash l || !destOk cnt o

/-- The descriptor conditions of a VX instruction with a destination of `cnt` elements. -/
def vxDescBad (o : VxOp) (c : CoreSt) (cnt : Nat) : Bool :=
  !([o.s0, o.s1, o.s2].all fun x => srcViewOk (vxEc o) x (aget c (descNum x.num)))
    || (o.dkind && !destViewOk cnt (aget c (descNum o.dnum)))

/-- A checked VX instruction joins the VE's queue. -/
def vxIssue (s : State) (d n pc : Nat) (i : Instr) (o : VxOp) (illegal desc : Bool) : Issued :=
  let c := getCore s d n
  match checkFault s d n illegal desc (vxViews o c) with
  | some (code, x) => .fault s code x
  | none => enqueueOp s d n 4 (vxOp c i pc o)

/-- VOP at issue: LOP names an operation, and a source that it does not use has KIND 0. -/
def bodyVop (s : State) (d n pc : Nat) (i : Instr) (o : VxOp) : Issued :=
  let bad := match laneArity o.lop.toNat with
    | none => true
    | some k => k == 0 || (k < 2 && o.s1.kind != 0) || (k < 3 && o.s2.kind != 0)
  vxIssue s d n pc i o (bad || vxIllegal o (vxEc o)) (vxDescBad o (getCore s d n) (vxEc o))

/-- VLP at issue. -/
def bodyVlp (s : State) (d n pc : Nat) (i : Instr) (o : VxOp) : Issued :=
  vxIssue s d n pc i o (vxIllegal o (vxEc o)) (vxDescBad o (getCore s d n) (vxEc o))

/-- VPERM at issue (R141). -/
def bodyVperm (s : State) (d n pc : Nat) (i : Instr) (o : VxOp) : Issued :=
  let c := getCore s d n
  let dst := aget c (descNum o.dnum)
  let bad := o.s0.kind != 1 || o.s0.bc != 0 || !(o.s1.kind == 1 || o.s1.kind == 2) || o.s1.bc != 0 || o.s2.kind != 0
    || o.rnd != 0 || (o.s1.kind == 1 && o.s1.fmt != fU16) || (!o.dkind && o.dfmt != o.s0.fmt)
  let desc := (o.s1.kind == 2 && (aget c (descNum o.s1.num)).fmt != fU16)
    || (o.dkind && (dst.fmt != o.s0.fmt || dst.scaled))
  vxIssue s d n pc i o (bad || vxIllegal o (vxEc o)) (desc || vxDescBad o c (vxEc o))

/-- Elements of VRED's destination (R143). -/
def vredCount (o : VxOp) : Nat := ceilDiv (vxEc o) 32

/-- VRED at issue (R143). -/
def bodyVred (s : State) (d n pc : Nat) (i : Instr) (o : VxOp) : Issued :=
  let bad := !(1 ≤ o.s0.kind.toNat && o.s0.kind.toNat ≤ 3) || o.s0.bc != 0 || o.s1.kind != 0 || o.s2.kind != 0
  vxIssue s d n pc i o (bad || vxIllegal o (vredCount o)) (vxDescBad o (getCore s d n) (vredCount o))

/-- VLPLD at issue (R133). -/
def bodyVlpld (s : State) (d n pc : Nat) (i : Instr) (o : VlpldOp) : Issued :=
  let a := xget (getCore s d n) o.xa + o.imm
  match outsideSlot s d n a.toNat 128 with
  | some x => .fault s fcADDR (BitVec.ofNat 64 x)
  | none =>
    if a.toNat % 128 ≠ 0 then .fault s fcALIGN a
    else enqueueOp s d n 4 
      { ins := i, pc := pc, d0 := Desc.zero, d1 := Desc.zero, d2 := Desc.zero, d3 := Desc.zero, x0 := a, x1 := 0, x2 := 0
        done := false }

/-- Whether a view of VOPT has its format and count (R144). -/
def voptView (write : Bool) (f : BitVec 4) (ec : Nat) (v : Desc) : Bool :=
  descOk write true v && v.fmt == f && viewCount v == ec

/-- VOPT at issue (R144). -/
def bodyVopt (s : State) (d n pc : Nat) (i : Instr) (o : VoptOp) : Issued :=
  let c := getCore s d n
  let ec := o.ecm1.toNat + 1
  let w := aget c o.dw
  let g := aget c o.dg
  let m := aget c o.dm
  let v := aget c o.dv
  let a := xget c o.xp
  let desc := !(voptView true fBF16 ec w && voptView false fBF16 ec g && voptView true fBF16 ec m
    && voptView true fLG16 ec v)
  match checkFault s d n false desc [w, g, m, v] with
  | some (code, x) => .fault s code x
  | none =>
    match outsideSlot s d n a.toNat 32 with
    | some x => .fault s fcADDR (BitVec.ofNat 64 x)
    | none =>
      if a.toNat % 32 ≠ 0 then .fault s fcALIGN a
      else enqueueOp s d n 4 
        { ins := i, pc := pc, d0 := w, d1 := g, d2 := m, d3 := v, x0 := a, x1 := 0, x2 := 0, done := false }

/-! In the engine. -/

/-- What a run of groups has come to: state, group and element to write next, results of an incomplete block. -/
structure VxRun where
  s : State
  g : Nat
  k : Nat
  rest : List Num

/-- How a run of groups ends. -/
inductive VxEnd where
  /-- every group is performed -/
  | all (s : State)
  /-- a group's conveyor is empty (R131) -/
  | empty (r : VxRun)
  | stop (s : State) (faddr : Word)

/-- What an instruction makes of its groups: the results of one group's elements, with their flags. -/
abbrev GroupVal := State → CoreSt → List Nat → List (Num × Flags)

/-- The groups of an instruction, `fuel` of them from group `r.g` on (R129, R130): a group waits while its conveyor is
empty; it is read whole, its tiles popped (R131), counted (R145, R147), computed and then written; its flags go to the
block at `b`.  `cyc` counts the cycles of a group. -/
def vxGroups (d n b ec : Nat) (srcs : List SrcIn) (dst : DestOut) (cyc : State → State) (val : GroupVal) :
    Nat → VxRun → VxEnd
  | 0, r => .all r.s
  | fuel + 1, r =>
    let els := groupEls ec r.g
    if !tilesReady (getCore r.s d n) srcs 1 then .empty r
    else match readSrcs r.s d n srcs els with
      | .error u => .stop u.1 u.2
      | .ok s =>
        let vs := val s (getCore s d n) els
        let s := cyc (modCore s d n fun c => popTiles c srcs 1)
        let (s, k, rest, f) := writeDest s d n dst r.k (r.rest ++ vs.map (·.1))
        vxGroups d n b ec srcs dst cyc val fuel
          ⟨setFlags s b 0 (f.or (Flags.all (vs.map (·.2)))), r.g + 1, k, rest⟩

/-- An element-wise instruction from where it stands on: it runs its groups, or waits at the one whose conveyor is
empty. -/
def vxRun (s : State) (d n : Nat) (b : Nat) (o : VxOp) (e : EngOp) (srcs : List SrcIn) (cyc : State → State)
    (val : GroupVal) : EngRes :=
  match vxGroups d n b (vxEc o) srcs (destOf s d n o e) cyc val (groupsOf (vxEc o) - e.group) ⟨s, e.group, e.next, e.rest⟩ with
  | .all s => .done s
  | .empty r => .waiting r.s { e with begun := true, group := r.g, next := r.k, rest := r.rest }
  | .stop s x => .fault s fcMEM x

/-- The results of an element-wise function, element by element. -/
def eachEl (val : State → CoreSt → Nat → Num × Flags) : GroupVal := fun s c els => els.map (val s c)

/-- Lane inputs of an element. -/
def laneInputs (s : State) (d : Nat) (c : CoreSt) (o : VxOp) (e : EngOp) (k : Nat) : LaneIn :=
  { i0 := srcNum s d c ⟨o.s0, e.d0, e.x0, o.imm16⟩ k, i1 := srcNum s d c ⟨o.s1, e.d1, e.x1, o.imm16⟩ k,
    i2 := srcNum s d c ⟨o.s2, e.d2, e.x2, o.imm16⟩ k, e := k }

/-- Lane-stage cycles counted (R145). -/
def veCycles (s : State) (d n k : Nat) : State := bump s (veBlk d n) VE_CNT_LANE k

/-- VOP (R123). -/
def runVop (s : State) (d n : Nat) (o : VxOp) (e : EngOp) : EngRes :=
  vxRun s d n (veBlk d n) o e (srcsOf o e) (fun s => veCycles s d n 1) <| eachEl fun s c k =>
    let x := laneInputs s d c o e k
    laneOp o.lop.toNat x.i0 x.i1 x.i2

/-- Lane program slot of VLP (R124). -/
def vlpSlot (o : VxOp) : Nat := bits o.lop.toNat 5 2

/-- VLP (R123, R138); its program's slot is read as it starts (R195). -/
def runVlp (s : State) (d n : Nat) (o : VxOp) (e : EngOp) : EngRes :=
  let ops := tget [] (getCore s d n).lps (vlpSlot o)
  match readUnits s d n (if e.begun then [] else [unitLps (vlpSlot o)]) with
  | (s, true) => .fault s fcMEM 0
  | (s, false) =>
    vxRun s d n (veBlk d n) o e (srcsOf o e) (fun s => veCycles s d n (laneCycles ops)) <| eachEl fun s c k =>
      laneRun ops laneTemps (laneInputs s d c o e k) Flags.none

/-- One combination of VRED (R143). -/
def vredOp (fn : Nat) (a b : Num) : Num × Flags :=
  if fn = 1 then (numMax a b, Flags.none) else if fn = 2 then (numMin a b, Flags.none)
  else laneArith (a.isNan || b.isNan) (nadd a b)

/-- A row reduced (R143). -/
def vredRow (fn : Nat) (xs : List Num) : Num × Flags :=
  let sq := xs.map fun x => if fn = 3 then laneArith x.isNan (nmul x x) else (x, Flags.none)
  let (v, f) := treeFold (vredOp fn) 6 (sq.map (·.1))
  (v, f.or (Flags.all (sq.map (·.2))))

/-- VRED (R143): a group gives one result for each of its rows. -/
def runVred (s : State) (d n : Nat) (o : VxOp) (e : EngOp) : EngRes :=
  let src : SrcIn := ⟨o.s0, e.d0, e.x0, o.imm16⟩
  vxRun s d n (veBlk d n) o e [src] (fun s => veCycles s d n 6) fun s c els =>
    (chunks 32 els.length (els.map (srcNum s d c src))).map (vredRow (bits o.lop.toNat 1 0))

/-- The selector of an element (R141). -/
def permSel (s : State) (d : Nat) (c : CoreSt) (o : VxOp) (e : EngOp) (k : Nat) : Nat :=
  if o.s1.kind = 1 then tileCode c o.s1.num.toNat k else viewCode s d e.d1 k

/-- Codes written to a destination as they are (R141). -/
def writeRaw (s : State) (d n : Nat) (o : VxOp) (e : EngOp) (k : Nat) (cs : List Nat) : State :=
  if o.dkind then writeCodes s d e.d3 (cs.length + 1) k cs
  else modCore s d n fun c => putTile o.dnum.toNat 40 c k cs

/-- The groups of VPERM from codes `src` of S0 (R141, R142); each group performed counts its lane-stage cycle: DESIGN
CHOICE (log 126), since R145 gives VPERM no L and R146 gives only the rate of a tile selector. -/
def permGroups (d n : Nat) (o : VxOp) (e : EngOp) (src : List Nat) : List Nat → State → EngRes
  | [], s => .done s
  | g :: gs, s =>
    let els := groupEls (vxEc o) g
    match readSrcs s d n [⟨o.s1, e.d1, e.x1, 0⟩] els with
    | .error u => .fault u.1 fcMEM u.2
    | .ok s =>
      let s := veCycles s d n 1
      let sel := els.map (permSel s d (getCore s d n) o e)
      let bad := (sel.filter fun i => (vxEc o) ≤ i).length
      let b := veBlk d n
      let s := if bad = 0 then s else bump (setBit s b VE_STATUS_OOR_LANE) b VE_CNT_OOR bad
      if bad ≠ 0 && rfb s b VE_CTRL_OOR_TRAP then .fault s fcTRAP 0
      else permGroups d n o e src gs (writeRaw s d n o e (1024 * g) (sel.map fun i => if i < (vxEc o) then src.getD i 0 else 0))

/-- VPERM (R141, R142). -/
def runVperm (s : State) (d n : Nat) (o : VxOp) (e : EngOp) : EngRes :=
  match readUnits s d n ((List.range (groupsOf (vxEc o))).map fun g => unitTile (o.s0.num.toNat + g)) with
  | (s, true) => .fault s fcMEM 0
  | (s, false) =>
    permGroups d n o e ((List.range (vxEc o)).map (tileCode (getCore s d n) o.s0.num.toNat))
      (List.range (groupsOf (vxEc o))) s

/-- VLPLD (R132-R134): each operation is checked; a bad one is stored as END, and under LOP_TRAP raises the engine trap
with the operations before it kept. -/
def runVlpld (s : State) (d n : Nat) (o : VlpldOp) (e : EngOp) : EngRes :=
  match memRead s d (localOf e.x0.toNat) 128 .clean with
  | (s, .poison u) => .fault s fcMEM (globalAddr s d u)
  | (s, .bytes img) =>
    let s := veCycles s d n 1
    let ops := (chunks 4 32 img).map fun b => BitVec.ofNat 32 (leNat b)
    let bad := ops.any fun w => !laneOk w
    let kept := ops.map fun w => if laneOk w then w else 0
    let trap := bad && rfb s (veBlk d n) VE_CTRL_LOP_TRAP
    let s := if bad then setBit s (veBlk d n) VE_STATUS_BAD_LOP else s
    let img := if trap then ops.takeWhile laneOk else kept
    let s := mendUnit (modCore s d n fun c => { c with lps := tset c.lps o.slot.toNat img }) d n (unitLps o.slot.toNat)
    if trap then .fault s fcTRAP 0 else .done s

/-! The fused optimiser update (R58-R60, R144). -/

/-- The parameter block (R59). -/
structure OptPar where
  eta : Nat
  beta1 : Nat
  omb1 : Nat
  lb2 : Int
  lomb2 : Int
  eps2 : Nat
  lambda : Nat
  uexp : Int
  decay : Bool
  tw : BitVec 32
  tm : BitVec 32
  clip : Nat
  deriving DecidableEq, Repr

/-- The block that 32 bytes spell. -/
def optParOf (b : List Byte) : OptPar :=
  { eta := leAt b 0 2, beta1 := leAt b 2 2, omb1 := leAt b 4 2, lb2 := sext 16 (leAt b 6 2), lomb2 := sext 16 (leAt b 8 2),
    eps2 := leAt b 10 2, lambda := leAt b 12 2, uexp := sext 8 (leAt b 14 1), decay := leAt b 15 1 % 2 == 1,
    tw := BitVec.ofNat 32 (leAt b 16 4), tm := BitVec.ofNat 32 (leAt b 20 4), clip := leAt b 24 2 }

/-- Whether the block holds no reserved encoding (R58, R59): UEXP within -64…63; its reserved bits are ignored (R11). -/
def optParOk (b : List Byte) : Bool :=
  decide (-64 ≤ sext 8 (leAt b 14 1)) && decide (sext 8 (leAt b 14 1) ≤ 63)

/-- Result codes of one element: w1, m1, v1 (R60), with the random bits of w1 and m1. -/
def optElement (p : OptPar) (w g m v rw rm : Nat) : Nat × Nat × Nat × Flags :=
  let cl := bf16 p.clip
  let g0 := bf16 g
  let g1 := nmul cl g0
  let f0 := if g1 = .nan true && !cl.isNan && !g0.isNan then Flags.NV else Flags.none
  let (m1, f1) := fpEncode fBF16 (some rm) (nadd (nmul (bf16 p.beta1) (bf16 m)) (nmul (bf16 p.omb1) g1))
  let (sv, f2) := lgScale v p.lb2
  let (gq, f3) := lgSquare g1
  let (sg, f4) := lgScale gq p.lomb2
  let (v1, f5) := lgAdd sv sg
  let (den, f6) := lgAdd v1 p.eps2
  let (u, f7) := roundW (nmul (bf16 m1) (lgRsqrt den))
  let (u, f8) := if p.decay then roundW (nadd u (nmul (bf16 p.lambda) (bf16 w))) else (u, Flags.none)
  let (w1, f9) := fpEncode fBF16 (some rw) (nsub (bf16 w) (nmul (bf16 p.eta) (u.scale p.uexp)))
  (w1, m1, v1, Flags.all [f0, f1, f2, f3, f4, f5, f6, f7, f8, f9])

/-- Random bits of element `k` of a view (R52, R60). -/
def optBits (kt : Word) (v : Desc) (k : Nat) : Nat := srBits kt (elemIndex v (k / v.cols.toNat) (k % v.cols.toNat))

/-- The groups of VOPT; its parity and ECC reads are those of four memory sources. -/
def optGroups (d n ec : Nat) (e : EngOp) (p : OptPar) : List Nat → State → EngRes
  | [], s => .done s
  | g :: gs, s =>
    let els := groupEls ec g
    let full : Src := ⟨2, 0, 0, 0⟩
    match readSrcs s d n [⟨full, e.d0, 0, 0⟩, ⟨full, e.d1, 0, 0⟩, ⟨full, e.d2, 0, 0⟩, ⟨full, e.d3, 0, 0⟩] els with
    | .error u => .fault u.1 fcMEM u.2
    | .ok s =>
      let s := veCycles s d n 4
      let (key, st) := keyStep s d n
      let kw := kTensor key st p.tw 0
      let km := kTensor key st p.tm 1
      let rs := els.map fun k =>
        optElement p (viewCode s d e.d0 k) (viewCode s d e.d1 k) (viewCode s d e.d2 k) (viewCode s d e.d3 k)
          (optBits kw e.d0 k) (optBits km e.d2 k)
      let fu := els.length + 1
      let s := writeCodes s d e.d0 fu (1024 * g) (rs.map (·.1))
      let s := writeCodes s d e.d2 fu (1024 * g) (rs.map (·.2.1))
      let s := writeCodes s d e.d3 fu (1024 * g) (rs.map (·.2.2.1))
      optGroups d n ec e p gs (setFlags s (veBlk d n) 0 (Flags.all (rs.map (·.2.2.2))))

/-- VOPT (R60, R144): a reserved encoding in the parameter block faults before any element is written. -/
def runVopt (s : State) (d n : Nat) (o : VoptOp) (e : EngOp) : EngRes :=
  let ec := o.ecm1.toNat + 1
  match memRead s d (localOf e.x0.toNat) 32 .clean with
  | (s, .poison u) => .fault s fcMEM (globalAddr s d u)
  | (s, .bytes b) =>
    if !optParOk b then .fault s fcDESC 0
    else optGroups d n ec e (optParOf b) (List.range (groupsOf ec)) s

/-- VE_CLRCNT (R147). -/
def execVeClrcnt (c : CoreId) (s : State) : Out :=
  onUnit c.die.val (veBlk c.die.val c.n.val + 8) (fset 0 VE_CTRL_CLRCNT 1) s (clearRegs s (veBlk c.die.val c.n.val) (offsets 0x10 0x20))

end Sys2Proof.Machine
end

