-- ==== Sys2Proof/Machine/Special.lean ====
section
/-! DEFINITION. The special-function engine (R148-R162, R173): built-in functions and derivatives, user slots, SFN, SFD
and STLD. -/

namespace Sys2Proof.Machine

/-! Built-in functions (R153-R157). -/

/-- -1, 0 or 1 as `x` lies below, at or above `num / den`; `x` is not NaN. -/
def cmpQ (x : Num) (num : Int) (den : Nat) : Int := ncmp (nmul x (.fin false den 0)) (Num.ofInt num)

/-- `x < num / den`. -/
def ltQ (x : Num) (num : Int) (den : Nat) : Bool := decide (cmpQ x num den < 0)

/-- `x > num / den`. -/
def gtQ (x : Num) (num : Int) (den : Nat) : Bool := decide (cmpQ x num den > 0)

/-- `x >= num / den`. -/
def geQ (x : Num) (num : Int) (den : Nat) : Bool := decide (cmpQ x num den ≥ 0)

/-- Whether a number is 2^-126 or more in magnitude. -/
def sfeLarge (x : Num) : Bool :=
  match x with
  | .fin _ m e => m != 0 && decide (-126 ≤ nlog2 m e)
  | _ => true

/-- Whether a finite number is an integer multiple of 2^k. -/
def multipleOf (k : Int) (x : Num) : Bool :=
  match x with
  | .fin _ m e => m == 0 || decide (k ≤ e) || m % 2 ^ (k - e).toNat == 0
  | _ => false

/-- +0 with no flag. -/
def sfeZero : Num × Flags := (Num.zero false, Flags.none)

/-- NaN with NV. -/
def sfeInvalid : Num × Flags := (.nan false, Flags.NV)

/-- A flushed result: a zero of the sign given, with UF (R154). -/
def sfeFlush (neg : Bool) : Num × Flags := (Num.zero neg, Flags.UF)

/-- Infinite result of a finite input, with OF (R154). -/
def sfeOver (neg : Bool) : Num × Flags := (.inf neg, Flags.OF)

/-- Fixed results and inputs flushed of a built-in function (R153, R154), by function code; none where the value is the
engine's own within its bound. -/
def sfeFixed (fn : Nat) (x : Num) : Option (Num × Flags) :=
  let neg := x.isNeg && !x.isZero
  match fn with
  | 0x00 =>
    if x.isInf then some (if x.isNeg then sfeZero else (x, Flags.none))
    else if geQ x 1024 1 then some (sfeOver false) else if ltQ x (-126) 1 then some (sfeFlush false) else none
  | 0x01 =>
    if x.isInf then some (if x.isNeg then sfeZero else (x, Flags.none))
    else if geQ x 70979 100 then some (sfeOver false) else if ltQ x (-8733654) 100000 then some (sfeFlush false) else none
  | 0x02 | 0x03 =>
    if x.isZero then some (.inf true, Flags.none) else if neg then some sfeInvalid
    else if x.isInf then some (x, Flags.none) else none
  | 0x04 =>
    if x.isZero then some (sfeOver x.isNeg) else if x.isInf then some (Num.zero x.isNeg, Flags.none)
    else if gtQ x.abs (2 ^ 126) 1 then some (sfeFlush x.isNeg) else none
  | 0x05 =>
    if x.isZero then some (sfeOver x.isNeg) else if neg then some sfeInvalid else if x.isInf then some sfeZero
    else if gtQ x (2 ^ 252) 1 then some (sfeFlush false) else none
  | 0x06 =>
    if x.isZero then some (x, Flags.none) else if neg then some sfeInvalid
    else if x.isInf then some (x, Flags.none) else none
  | 0x07 =>
    if geQ x.abs 19 2 then some (.fin x.isNeg 1 0, Flags.none)
    else if x.isZero then some (x, Flags.none) else if sfeLarge x then none else some (sfeFlush x.isNeg)
  | 0x08 =>
    if gtQ x 1733 100 then some (Num.one, Flags.none)
    else if x.isInf then some sfeZero else if ltQ x (-8733654) 100000 then some (sfeFlush false) else none
  | 0x09 =>
    if geQ x 11 2 then some (x, Flags.none) else if x.isInf then some (Num.zero true, Flags.none)
    else if ltQ x (-1315) 100 then some (sfeFlush true) else none
  | 0x0A =>
    if gtQ x 1733 100 then some (x, Flags.none) else if x.isInf then some (Num.zero true, Flags.none)
    else if ltQ x (-9185) 100 then some (sfeFlush true) else none
  | 0x0B =>
    if gtQ x 1733 100 then some (x, Flags.none)
    else if x.isInf then some sfeZero else if ltQ x (-8733654) 100000 then some (sfeFlush false) else none
  | 0x0C =>
    if geQ x.abs 4 1 then some (.fin x.isNeg 1 0, Flags.none)
    else if x.isZero then some (x, Flags.none) else if sfeLarge x then none else some (sfeFlush x.isNeg)
  | 0x0D =>
    if x.isInf then some sfeInvalid else if multipleOf (-1) x then some (Num.zero x.isNeg, Flags.none) else none
  | _ =>
    if x.isInf then some sfeInvalid
    else if multipleOf (-2) x && !multipleOf (-1) x then some sfeZero else none

/-- Fixed results and inputs flushed of a built-in derivative (R154, R157; log 30: the limits at the infinities that the
table does not list). -/
def sfeFixedD (fn : Nat) (x : Num) : Option (Num × Flags) :=
  let neg := x.isNeg && !x.isZero
  match fn with
  | 0x00 | 0x01 =>
    if x.isInf then some (if x.isNeg then sfeZero else (x, Flags.none))
    else if (if fn = 0 then geQ x 1024 1 else geQ x 70979 100) then some (sfeOver false)
    else if (if fn = 0 then ltQ x (-126) 1 else ltQ x (-8733654) 100000) then some (sfeFlush false) else none
  | 0x02 | 0x03 =>
    if x.isZero then some (sfeOver x.isNeg) else if neg then some sfeInvalid else if x.isInf then some sfeZero else none
  | 0x04 => if x.isZero then some (sfeOver true) else if x.isInf then some (Num.zero true, Flags.none) else none
  | 0x05 =>
    if x.isZero then some (sfeOver true) else if neg then some sfeInvalid
    else if x.isInf then some (Num.zero true, Flags.none) else none
  | 0x06 =>
    if x.isZero then some (sfeOver false) else if neg then some sfeInvalid else if x.isInf then some sfeZero else none
  | 0x07 => if geQ x.abs 19 2 then some sfeZero else none
  | 0x08 => if gtQ x.abs 8733654 100000 then some (sfeFlush false) else none
  | 0x09 => if geQ x 11 2 then some (Num.one, Flags.none) else if ltQ x (-1315) 100 then some sfeZero else none
  | 0x0A => if gtQ x 1733 100 then some (Num.one, Flags.none) else if ltQ x (-9185) 100 then some sfeZero else none
  | 0x0B => sfeFixed 0x08 x
  | 0x0C => if gtQ x.abs 939 100 then some (sfeFlush false) else none
  | _ => if x.isInf then some sfeInvalid else none

/-- Whether the exact result is zero, so that writing a zero sets no UF (R154). -/
def sfeExactZero (fn : Nat) (deriv : Bool) (x : Num) : Bool :=
  if deriv then
    (fn == 0x0D && multipleOf (-2) x && !multipleOf (-1) x) || (fn == 0x0E && multipleOf (-1) x)
  else ((fn == 0x02 || fn == 0x03) && ncmp x Num.one == 0) || ((fn == 0x09 || fn == 0x0A) && x.isZero)

/-- A built-in function or derivative of a working-form or extended value (R148, R153-R157): NaN passes; then the fixed
results and flush rules; else the value of the engine's own algorithm revision, a free value (log 6), flushed below
2^-126. -/
def sfeEval (algrev fn : Nat) (deriv : Bool) (x : Num) : Num × Flags :=
  match x with
  | .nan _ => (.nan false, Flags.none)
  | _ =>
    match (if deriv then sfeFixedD fn x else sfeFixed fn x) with
    | some r => r
    | none =>
      let p := x.mag
      let (n, m, e) := Config.sfeValue algrev fn deriv x.isNeg p.1 p.2
      let v := (roundW (.fin n m e)).1
      if sfeLarge v then (v, Flags.none)
      else (Num.zero n, if sfeExactZero fn deriv x then Flags.none else Flags.UF)

/-- The algorithm revision of the module (R155). -/
def algrevOf (s : State) : Nat := s.secure.variant.algrev.toNat

/-! User slots (R158-R162). -/

/-- Number of the user slot that a function code names. -/
def userSlot (fn : Nat) : Option Nat := if 0x10 ≤ fn ∧ fn ≤ 0x13 then some (fn - 0x10) else none

/-- A function code of the table (R153). -/
def fnDefined (fn : Nat) : Bool := fn ≤ 0x0E || (userSlot fn).isSome

/-- A BF16 field of a table image. -/
def imgNum (img : List Byte) (o : Nat) : Num := bf16 (leAt img o 2)

/-- Byte offsets of a segment record's coefficient fields. -/
def coefOffs : List Nat := [0, 2, 4, 6, 8, 10, 12, 14, 16]

/-- The check of a table image (R160). -/
def imageOk (img : List Byte) : Bool :=
  let fields := [0, 2, 4, 6, 8, 10] ++ ((List.range 64).map fun k => coefOffs.map fun o => 64 + 32 * k + o).flatten
  leAt img 12 1 == 1 && slice img 13 51 == List.replicate 51 0
    && ((List.range 64).all fun k => slice img (64 + 32 * k + 18) 14 == List.replicate 14 0)
    && (fields.all fun o => match imgNum img o with
        | .fin _ _ _ => true
        | _ => false)
    && ncmp (imgNum img 0) (imgNum img 2) < 0

/-- Two rounded steps: a + b × c (R159). -/
def slotStep (a b c : Num) : Num × Flags :=
  let (p, f) := laneArith (b.isNan || c.isNan) (nmul b c)
  let (q, g) := laneArith (a.isNan || p.isNan) (nadd a p)
  (q, f.or g)

/-- A tail of a slot (R159): intercept and slope. -/
def slotTail (x a b : Num) (deriv : Bool) : Num × Flags :=
  if deriv then (b, Flags.none) else if x.isInf && b.isZero then (a, Flags.none) else slotStep a b x

/-- Evaluation inside the domain (R159). -/
def slotInside (img : List Byte) (x : Num) (deriv : Bool) : Num × Flags :=
  let lo := imgNum img 0
  let (t, f1) := roundW (nsub x lo)
  let (t, f2) := roundW (nmul t (.fin false 64 0))
  let (w, f3) := roundW (nsub (imgNum img 2) lo)
  let (u, f4) := roundW (ndiv 24 t w)
  let k := ((toIntSat 0 63 (numFloor u)).getD 0).toNat
  let (u, f5) := roundW (nsub u (.fin false k 0))
  let c := fun o => imgNum img (64 + 32 * k + o)
  let f := Flags.all [f1, f2, f3, f4, f5]
  if deriv then
    let (d0, g1) := roundW (nadd (c 10) (c 12))
    let (q, g2) := slotStep (c 14) u (c 16)
    let (y, g3) := slotStep d0 u q
    (y, Flags.all [f, g1, g2, g3])
  else
    let (c0, g1) := roundW (nadd (c 0) (c 2))
    let (q, g2) := slotStep (c 6) u (c 8)
    let (q, g3) := slotStep (c 4) u q
    let (y, g4) := slotStep c0 u q
    (y, Flags.all [f, g1, g2, g3, g4])

/-- A user slot's function or derivative (R159). -/
def slotEval (img : List Byte) (deriv : Bool) (x : Num) : Num × Flags :=
  if x.isNan then (.nan false, Flags.none)
  else if ncmp x (imgNum img 0) < 0 then slotTail x (imgNum img 4) (imgNum img 6) deriv
  else if ncmp x (imgNum img 2) < 0 then slotInside img x deriv
  else slotTail x (imgNum img 8) (imgNum img 10) deriv

/-- VALID, PENDING and GEN of a slot in SFE_TABLE (R173). -/
def tblValid (s : State) (d n k : Nat) : Bool := rfb s (sfeBlk d n) ⟨0x18, 8 * k + 7, 1⟩

/-- PENDING. -/
def tblPending (s : State) (d n k : Nat) : Bool := rfb s (sfeBlk d n) ⟨0x18, 8 * k + 6, 1⟩

/-- GEN. -/
def tblGen (s : State) (d n k : Nat) : Nat := rf s (sfeBlk d n) ⟨0x18, 8 * k, 4⟩

/-- A user slot of a core. -/
def getSlot (c : CoreSt) (k : Nat) : SfeSlot := tget ⟨[], []⟩ c.slots k

/-- GCHK of the SF control field (R150). -/
def sfGchk (o : VxOp) : Bool := o.imm16.getLsbD 15

/-- GEN of the SF control field. -/
def sfGen (o : VxOp) : Nat := bits o.imm16.toNat 14 11

/-- TS of the SF control field. -/
def sfTs (o : VxOp) : Nat := bits o.imm16.toNat 10 6

/-! At issue (R151). -/

/-- Formats of S0 (R151). -/
def sfSrcFmt (f : BitVec 4) : Bool := fmtFloat f

/-- Formats of a tile destination (R151). -/
def sfTileFmt (f : BitVec 4) : Bool := f = fBF16 || f = fFP16

/-- Whether S0's format is none that an SF form reads. -/
def sfS0Bad (o : VxOp) (c : CoreSt) : Bool :=
  match o.s0.kind.toNat with
  | 1 | 4 => !sfSrcFmt o.s0.fmt
  | 2 => !sfSrcFmt (aget c (descNum o.s0.num)).fmt
  | _ => false

/-- A destination marked 0 (R151). -/
def destZero (o : VxOp) : Bool := !o.dkind && o.dnum == 0 && o.dfmt == 0 && o.rnd == 0 && o.site == 0

/-- SFN and SFD at issue: `two` tells whether S1 is used. -/
def sfnIssue (s : State) (d n pc : Nat) (i : Instr) (o : VxOp) (two : Bool) : Issued :=
  let c := getCore s d n
  let ec := vxEc o
  let l := [o.s0, o.s1, o.s2]
  let illegal := !fnDefined o.lop.toNat || !(l.all (srcOk false ec)) || srcsClash l || o.s2.kind != 0
    || (!two && o.s1.kind != 0) || sfS0Bad o c || (!o.dkind && !sfTileFmt o.dfmt) || !destOk ec o
  match checkFault s d n illegal (vxDescBad o c ec) (vxViews o c) with
  | some (code, x) => .fault s code x
  | none => enqueueOp s d n 5 (vxOp c i pc o)

/-- SFN at issue. -/
def bodySfn (s : State) (d n pc : Nat) (i : Instr) (o : VxOp) : Issued := sfnIssue s d n pc i o false

/-- SFD at issue. -/
def bodySfd (s : State) (d n pc : Nat) (i : Instr) (o : VxOp) : Issued := sfnIssue s d n pc i o true

/-- STLD at issue (R151): an image that is not U16 breaks a format rule, its shape a view rule. -/
def bodyStld (s : State) (d n pc : Nat) (i : Instr) (o : VxOp) : Issued :=
  let c := getCore s d n
  let v := aget c (descNum o.s0.num)
  let illegal := (userSlot o.lop.toNat).isNone || o.s0.kind != 2 || 16 ≤ o.s0.num.toNat || o.s1.kind != 0
    || o.s2.kind != 0 || !destZero o || v.fmt != fU16
  let desc := !descOk false true v || v.rows.toNat != 1 || v.cols.toNat != 1056
  match checkFault s d n illegal desc [v] with
  | some (code, x) => .fault s code x
  | none =>
    if v.base.toNat % 64 ≠ 0 then .fault s fcALIGN v.base
    else enqueueOp s d n 5 (vxOp c i pc o)

/-! In the engine. -/

/-- Function-stage cycles counted (R172). -/
def sfeCycles (s : State) (d n k : Nat) : State := bump s (sfeBlk d n) SFE_CNT_FUNC k

/-- What the start of an instruction that names a function finds (R161, R162). -/
inductive SlotCheck where
  /-- held until the pending swap -/
  | wait
  | trap (s : State)
  | go (s : State) (empty : Bool)

/-- The checks of R162, after any swap that the instruction waits for (R161).  DESIGN CHOICE (log 127): of a generation
mismatch that traps and an empty slot, both found at one start, the mismatch ends the instruction and SLOT_EMPTY is not
set. -/
def slotCheck (s : State) (d n : Nat) (o : VxOp) : SlotCheck :=
  match userSlot o.lop.toNat with
  | none => .go s false
  | some k =>
    let b := sfeBlk d n
    if tblPending s d n k then .wait
    else
      let bad := sfGchk o && sfGen o != tblGen s d n k
      let s := if bad then setBit s b SFE_STATUS_GEN_MISMATCH else s
      if bad && rfb s b SFE_CTRL_GEN_TRAP then .trap s
      else if tblValid s d n k then .go s false
      else
        let s := setBit s b SFE_STATUS_SLOT_EMPTY
        if rfb s b SFE_CTRL_EMPTY_TRAP then .trap s else .go s true

/-- The function that a code names, on one value. -/
def fnEval (s : State) (c : CoreSt) (fn : Nat) (deriv empty : Bool) (x : Num) : Num × Flags :=
  match userSlot fn with
  | none => sfeEval (algrevOf s) fn deriv x
  | some k => if empty then (.nan false, Flags.NV) else slotEval (getSlot c k).active deriv x

/-- A form that evaluates the function it names (R149, R156): the checks of R162 are made once, as it starts, and a user
slot's active bank is read (R195). -/
def fnRun (s : State) (d n : Nat) (o : VxOp) (e : EngOp) (val : Bool → State → CoreSt → Nat → Num × Flags) : EngRes :=
  let run := fun s empty =>
    vxRun s d n (sfeBlk d n) o e (srcsOf o e) (fun s => sfeCycles s d n 4) (eachEl (val empty))
  if e.begun then run s ((userSlot o.lop.toNat).any fun k => !tblValid s d n k)
  else match slotCheck s d n o with
  | .wait => .blocked
  | .trap s => .fault s fcTRAP 0
  | .go s empty =>
    match readUnits s d n ((userSlot o.lop.toNat).toList.map fun k => unitBank k false) with
    | (s, true) => .fault s fcMEM 0
    | (s, false) => run s empty

/-- SFN (R149). -/
def runSfn (s : State) (d n : Nat) (o : VxOp) (e : EngOp) : EngRes :=
  fnRun s d n o e fun empty s c k => fnEval s c o.lop.toNat false empty (srcNum s d c ⟨o.s0, e.d0, e.x0, o.imm16⟩ k)

/-- SFD (R156): d × dy, exact and rounded once. -/
def runSfd (s : State) (d n : Nat) (o : VxOp) (e : EngOp) : EngRes :=
  fnRun s d n o e fun empty s c k =>
    let (v, f) := fnEval s c o.lop.toNat true empty (srcNum s d c ⟨o.s0, e.d0, e.x0, o.imm16⟩ k)
    let dy := srcNum s d c ⟨o.s1, e.d1, e.x1, o.imm16⟩ k
    let (y, g) := laneArith (v.isNan || dy.isNan) (nmul v dy)
    (y, f.or g)

/-- STLD (R160, R161): the image is checked and becomes pending; a second load waits for the swap.  DESIGN CHOICE (log
128): R162's checks are those of an instruction that uses a slot's generation and contents; an STLD replaces them, and
ignores GCHK and GEN. -/
def runStld (s : State) (d n : Nat) (o : VxOp) (e : EngOp) : EngRes :=
  let k := (userSlot o.lop.toNat).getD 0
  if tblPending s d n k then .blocked
  else
    match memRead s d (localOf e.d0.base.toNat) 2112 .clean with
    | (s, .poison u) => .fault s fcMEM (globalAddr s d u)
    | (s, .bytes img) =>
      let s := sfeCycles s d n 19
      if imageOk img then
        let s := wf s (sfeBlk d n) ⟨0x18, 8 * k + 6, 1⟩ 1
        let s := mendUnit s d n (unitBank k true)
        .done (modCore s d n fun c => { c with slots := tset c.slots k { getSlot c k with shadow := img } })
      else
        let s := setBit s (sfeBlk d n) SFE_STATUS_TBL_BAD
        if rfb s (sfeBlk d n) SFE_CTRL_TBL_TRAP then .fault s fcTRAP 0 else .done s

/-- The swap of a slot's banks (R161). -/
def slotSwap (s : State) (d n k : Nat) : State :=
  if tblPending s d n k then
    let b := sfeBlk d n
    let s := wf s b ⟨0x18, 8 * k, 4⟩ (tblGen s d n k + 1)
    let s := wf (wf s b ⟨0x18, 8 * k + 6, 1⟩ 0) b ⟨0x18, 8 * k + 7, 1⟩ 1
    let up := tget .clean (getCore s d n).upsets (unitBank k true)
    let s := mendUnit (mendUnit s d n (unitBank k true)) d n (unitBank k false)
    modCore s d n fun c =>
      { c with
        slots := tset c.slots k { getSlot c k with active := (getSlot c k).shadow }
        upsets := if up = .clean then c.upsets else tset c.upsets (unitBank k false) up }
  else s

/-- SFE_CLRCNT (R173). -/
def execSfeClrcnt (c : CoreId) (s : State) : Out :=
  onUnit c.die.val (sfeBlk c.die.val c.n.val + 8) (fset 0 SFE_CTRL_CLRCNT 1) s (clearRegs s (sfeBlk c.die.val c.n.val) (offsets 0x20 0x30))

end Sys2Proof.Machine
end

