-- ==== Sys2Proof/Machine/RowStats.lean ====
section
/-! DEFINITION. The row-statistics unit (R163-R171): RSMAX, RSEXP, RSMOM and RSCTL. -/

namespace Sys2Proof.Machine

/-! At issue (R150, R151, R166). -/

/-- CC (R150). -/
def rsCc (o : VxOp) : Nat := bits o.ecm1.toNat 8 0 + 1

/-- NT: tiles of a row (R166). -/
def rsNt (o : VxOp) : Nat := ceilDiv (rsCc o) 32

/-- Whether a tile lies in the run of `nt` tiles from `num`. -/
def inRun (ts num nt : Nat) : Bool := num ≤ ts && ts < num + nt

/-- Whether S0 of an RS form breaks an encoding or format rule. -/
def rsSrcIllegal (o : VxOp) (c : CoreSt) : Bool :=
  let num := o.s0.num.toNat
  match o.s0.kind.toNat with
  | 1 => !sfTileFmt o.s0.fmt || o.s0.bc != 0 || 32 < num + rsNt o || inRun (sfTs o) num (rsNt o)
  | 2 => 16 ≤ num || o.s0.bc != 0 || !sfSrcFmt (aget c (descNum o.s0.num)).fmt
  | 3 => 4 ≤ num || o.s0.bc != 0
  | _ => true

/-- Whether S0's view breaks R69 or R166. -/
def rsSrcDesc (o : VxOp) (c : CoreSt) : Bool :=
  let v := aget c (descNum o.s0.num)
  o.s0.kind == 2 && (!descOk false true v || 32 < v.rows.toNat || v.cols.toNat != rsCc o)

/-- Present rows of the source (R166). -/
def rsRows (o : VxOp) (v : Desc) : Nat := if o.s0.kind = 2 then v.rows.toNat else 32

/-- Whether the P destination breaks an encoding or format rule. -/
def rsDestIllegal (o : VxOp) : Bool :=
  if o.dkind then 16 ≤ o.dnum.toNat || 2 ≤ o.rnd.toNat
  else !sfTileFmt o.dfmt || 32 < o.dnum.toNat + rsNt o || inRun (sfTs o) o.dnum.toNat (rsNt o) || o.rnd != 0

/-- Whether the P destination's view breaks R69, R140 or R166. -/
def rsDestDesc (o : VxOp) (c : CoreSt) : Bool :=
  let v := aget c (descNum o.dnum)
  o.dkind && (!descOk true true v || v.fmt == fU32 || v.rows.toNat != rsRows o (aget c (descNum o.s0.num))
    || v.cols.toNat != rsCc o || !blocksWhole v)

/-- An RS form joins the SFE's queue. -/
def rsIssue (s : State) (d n pc : Nat) (i : Instr) (o : VxOp) (illegal desc : Bool) : Issued :=
  let c := getCore s d n
  match checkFault s d n illegal desc (vxViews o c) with
  | some (code, x) => .fault s code x
  | none => enqueueOp s d n 5 (vxOp c i pc o)

/-- RSMAX and RSEXP at issue. -/
def rsScoreIssue (s : State) (d n pc : Nat) (i : Instr) (o : VxOp) : Issued :=
  let c := getCore s d n
  rsIssue s d n pc i o
    (rsSrcIllegal o c || o.s1.kind != 0 || o.s2.kind != 4 || o.s2.fmt != fBF16 || rsDestIllegal o)
    (rsSrcDesc o c || rsDestDesc o c)

/-- RSMAX at issue. -/
def bodyRsmax (s : State) (d n pc : Nat) (i : Instr) (o : VxOp) : Issued := rsScoreIssue s d n pc i o

/-- RSEXP at issue. -/
def bodyRsexp (s : State) (d n pc : Nat) (i : Instr) (o : VxOp) : Issued := rsScoreIssue s d n pc i o

/-- RSMOM at issue. -/
def bodyRsmom (s : State) (d n pc : Nat) (i : Instr) (o : VxOp) : Issued :=
  let c := getCore s d n
  rsIssue s d n pc i o (rsSrcIllegal o c || o.s1.kind != 0 || o.s2.kind != 0 || !destZero o) (rsSrcDesc o c)

/-- Function of RSCTL (R171). -/
def rsFn (o : VxOp) : Nat := bits o.lop.toNat 1 0

/-- RSCTL at issue: ε of finish-moments is neither negative nor NaN (R151). -/
def bodyRsctl (s : State) (d n pc : Nat) (i : Instr) (o : VxOp) : Issued :=
  let eps := bf16 (xget (getCore s d n) o.s2.num).toNat
  let epsBad := o.s2.kind != 4 || o.s2.fmt != fBF16 || eps.isNan || (eps.isNeg && !eps.isZero)
  rsIssue s d n pc i o
    (o.s0.kind != 0 || o.s1.kind != 0 || !destZero o || (if rsFn o = 3 then epsBad else o.s2.kind != 0)) false

/-! Rows. -/

/-- Value of column `k` of row `r` of the source (R166); `got` holds the tiles popped from a conveyor source. -/
def rsVal (s : State) (d : Nat) (c : CoreSt) (o : VxOp) (v : Desc) (got : List Tile) (r k : Nat) : Num :=
  let p := 32 * r + k % 32
  match o.s0.kind.toNat with
  | 1 => fmtDecode o.s0.fmt (tileCode c (o.s0.num.toNat + k / 32) p)
  | 2 => elemNum s d v r k
  | _ => tileNum (got.getD (k / 32) Tile.empty) p

/-- A row of the source. -/
def rsRow (s : State) (d : Nat) (c : CoreSt) (o : VxOp) (e : EngOp) (r : Nat) : List Num :=
  (List.range (rsCc o)).map (rsVal s d c o e.d0 e.got r)

/-- The tree sum of a row (R166): within each tile's 32 columns, then across the tiles. -/
def rsSum (xs : List Num) : Num × Flags :=
  let parts := (chunks 32 xs.length xs).map sumX
  let (v, f) := sumX (parts.map (·.1))
  (v, f.or (Flags.all (parts.map (·.2))))

/-- A code of the statistics tile (R164). -/
def tsGet (c : CoreSt) (ts r k : Nat) : Nat := tileCode c ts (32 * r + k)

/-- Codes written from a column on in a row of the statistics tile. -/
def tsPut (s : State) (d n ts r k : Nat) (cs : List Nat) : State :=
  modCore s d n fun c => putTile ts 2 c (32 * r + k) cs

/-- A pair of the statistics tile as an extended value (R165). -/
def tsPair (c : CoreSt) (ts r k : Nat) : Num := pairVal (tsGet c ts r k) (tsGet c ts r (k + 1))

/-- The flags of reading that pair. -/
def tsFlags (c : CoreSt) (ts r k : Nat) : Flags := (pairRead (tsGet c ts r k) (tsGet c ts r (k + 1))).2

/-- A row of P rounded and written (R139, R140, R166), with its values as written. -/
def rsWrite (s : State) (d n : Nat) (o : VxOp) (v : Desc) (r : Nat) (xs : List Num) : State × List Num × Flags :=
  if o.dkind then
    let kt := keyFor s d n v.tid o.site
    let (_, _, f) := rowEncode v kt (o.rnd = 1) r xs
    let s := (writeRow s d v kt (o.rnd = 1) r xs).1
    (s, (List.range xs.length).map (elemNum s d v r), f)
  else
    let cs := xs.map (fmtEncode o.dfmt none)
    let s := ((List.range xs.length).zip cs).foldl
      (fun s p => modCore s d n fun c => putTile (o.dnum.toNat + p.1 / 32) 2 c (32 * r + p.1 % 32) [p.2.1]) s
    (s, cs.map fun x => fmtDecode o.dfmt x.1, Flags.all (cs.map (·.2)))

/-- Values with their flags gathered. -/
def gather (l : List (Num × Flags)) : List Num × Flags := (l.map (·.1), Flags.all (l.map (·.2)))

/-- z(c) (R167). -/
def rsScale (c : Num) (xs : List Num) : List Num × Flags :=
  gather (xs.map fun x => laneArith (c.isNan || x.isNan) (nmul c x))

/-- EXP2 of rounded differences (R167, R168). -/
def rsExp (s : State) (zs : List Num) (m : Num) : List Num × Flags :=
  gather (zs.map fun z =>
    let (x, f) := laneArith (z.isNan || m.isNan) (nsub z m)
    let (y, g) := sfeEval (algrevOf s) 0 false x
    (y, f.or g))

/-! RSMAX and RSEXP. -/

/-- Code of the least BF16 value at or above a number that is not NaN nor above the largest finite one (R45, R167): a
finite number below the most negative finite value gives that value.  DESIGN CHOICE (log 129): between -2^-126 and 2^-126
the value is a zero or 2^-126, never a subnormal, which no BF16 code of the model's results is (R45). -/
def ceilBf16 (x : Num) : Nat :=
  match x with
  | .fin n m e =>
    if m = 0 then (if n then 0x8000 else 0)
    else if nlog2 m e < -126 then (if n then 0x8000 else 0x0080)
    else
      let (c, r, _) := fpFloor lBF16 m e
      if n then 0x8000 + min c 0x7F7F else if r = 0 then c else c + 1
  | .inf true => 0xFF80
  | _ => 0x7F80

/-- Whether R167 writes a row as NaN: its maximum is NaN, or exceeds the largest finite BF16 value. -/
def rsBad (m : Num) : Bool := m.isNan || decide (ncmp (.fin false 255 120) m < 0)

/-- One row of RSMAX (R167).  DESIGN CHOICE (log 130): a stored MAX that is NaN makes the row's maximum NaN, and the row is
then written as the rule's NaN rows are, NV set, although no z is NaN. -/
def rsmaxRow (d n : Nat) (o : VxOp) (e : EngOp) (st : State × Flags) (r : Nat) : State × Flags :=
  let (s, f) := st
  let c := getCore s d n
  let ts := sfTs o
  let (zs, f1) := rsScale (bf16 e.x2.toNat) (rsRow s d c o e r)
  let old := bf16 (tsGet c ts r 0)
  let top := zs.foldl numMax old
  if rsBad top then
    let (s, _, f2) := rsWrite s d n o e.d3 r (zs.map fun _ => .nan false)
    (tsPut s d n ts r 0 [0x7FC0, 0x7FC0, 0, 0x7FC0], Flags.all [f, f1, f2, Flags.NV])
  else if top.isInf then
    let (s, _, f2) := rsWrite s d n o e.d3 r (zs.map fun _ => Num.zero false)
    (tsPut s d n ts r 3 [0x3F80], Flags.all [f, f1, f2])
  else
    let m := ceilBf16 top
    let (corr, f2) := rsExp s [old] (bf16 m)
    let (cc, f3) := rnBF16 (corr.headD (Num.zero false))
    let (ps, f4) := rsExp s zs (bf16 m)
    let (s, vs, f5) := rsWrite s d n o e.d3 r ps
    let (rs, f6) := rsSum vs
    let (a, f7) := roundX (nmul (tsPair c ts r 1) (bf16 cc))
    let (sum, f8) := addX a rs
    let (hi, lo, f9) := pairOf sum
    (tsPut s d n ts r 0 [m, hi, lo, cc], Flags.all [f, tsFlags c ts r 1, f1, f2, f3, f4, f5, f6, f7, f8, f9])

/-- One row of RSEXP (R168). -/
def rsexpRow (d n : Nat) (o : VxOp) (e : EngOp) (st : State × Flags) (r : Nat) : State × Flags :=
  let (s, f) := st
  let c := getCore s d n
  let ts := sfTs o
  if tsGet c ts r 4 = 0xFF80 then
    let (s, _, f1) := rsWrite s d n o e.d3 r (List.replicate (rsCc o) (Num.zero false))
    (s, f.or f1)
  else
    let (zs, f1) := rsScale (bf16 e.x2.toNat) (rsRow s d c o e r)
    let (ps, f2) := rsExp s zs (tsPair c ts r 4)
    let (s, _, f3) := rsWrite s d n o e.d3 r ps
    (s, Flags.all [f, tsFlags c ts r 4, f1, f2, f3])

/-! RSMOM (R169, R170). -/

/-- Count, mean and squared deviations. -/
abbrev Moments := Nat × Num × Num

/-- A segment (R169). -/
def segMoments (xs : List Num) : Moments × Flags :=
  let (sum, f1) := sumX xs
  let (mean, f2) := roundX (ndiv 48 sum (.fin false xs.length 0))
  let (ds, f3) := gather (xs.map fun x => roundX (nsub x mean))
  let (qs, f4) := gather (ds.map squareX)
  let (m2, f5) := sumX qs
  ((xs.length, mean, m2), Flags.all [f1, f2, f3, f4, f5])

/-- A merge (R170). -/
def mergeMoments (a b : Moments) : Moments × Flags :=
  let (na, ma, qa) := a
  let (nb, mb, qb) := b
  if na = 0 then (b, Flags.none)
  else if nb = 0 then (a, Flags.none)
  else
    let n := min (na + nb) (2 ^ 32 - 1)
    let f0 := if na + nb > 2 ^ 32 - 1 then Flags.OF else Flags.none
    let nn : Num := .fin false n 0
    let (dd, f1) := roundX (nsub mb ma)
    let (w, f2) := roundX (ndiv 48 (.fin false nb 0) nn)
    let (dw, f3) := roundX (nmul dd w)
    let (mean, f4) := addX ma dw
    let (q, f5) := addX qa qb
    let (sq, f6) := roundX (nmul dd dd)
    let (k, f7) := roundX (ndiv 48 (.fin false (na * nb) 0) nn)
    let (t, f8) := roundX (nmul sq k)
    let (m2, f9) := addX q t
    ((n, mean, if m2.isNeg then Num.zero false else m2), Flags.all [f0, f1, f2, f3, f4, f5, f6, f7, f8, f9])

/-- One level of the segment tree. -/
def mergeLevel : List Moments → List Moments × Flags
  | a :: b :: l =>
    let (x, f) := mergeMoments a b
    let (xs, g) := mergeLevel l
    (x :: xs, f.or g)
  | l => (l, Flags.none)

/-- The segment tree; `fuel` bounds its levels. -/
def mergeTree : Nat → List Moments → Moments × Flags
  | 0, l => (l.headD (0, Num.zero false, Num.zero false), Flags.none)
  | fuel + 1, l =>
    if l.length ≤ 1 then (l.headD (0, Num.zero false, Num.zero false), Flags.none)
    else
      let (xs, f) := mergeLevel l
      let (x, g) := mergeTree fuel xs
      (x, f.or g)

/-- One row of RSMOM (R169, R170). -/
def rsmomRow (d n : Nat) (o : VxOp) (e : EngOp) (st : State × Flags) (r : Nat) : State × Flags :=
  let (s, f) := st
  let c := getCore s d n
  let ts := sfTs o
  let xs := rsRow s d c o e r
  let segs := (chunks 32 xs.length xs).map segMoments
  let (m, f1) := mergeTree 5 (segs.map (·.1))
  let row : Moments := (tsGet c ts r 6 + 65536 * tsGet c ts r 7, tsPair c ts r 8, tsPair c ts r 10)
  let ((k, mean, m2), f2) := mergeMoments row m
  let (mh, ml, f3) := pairOf mean
  let (qh, ql, f4) := pairOf m2
  (tsPut s d n ts r 6 [k % 65536, k / 65536, mh, ml, qh, ql], 
    Flags.all [f, Flags.all (segs.map (·.2)), tsFlags c ts r 8, tsFlags c ts r 10, f1, f2, f3, f4])

/-! RSCTL (R171). -/

/-- One row of RSCTL. -/
def rsctlRow (d n : Nat) (o : VxOp) (e : EngOp) (st : State × Flags) (r : Nat) : State × Flags :=
  let (s, f) := st
  let c := getCore s d n
  let ts := sfTs o
  let fn := fun k x => sfeEval (algrevOf s) k false x
  match rsFn o with
  | 0 => (tsPut s d n ts r 0 [0xFF80, 0, 0, 0x3F80, 0xFF80, 0], f)
  | 1 => (tsPut s d n ts r 6 [0, 0, 0, 0, 0, 0, 0, 0], f)
  | 2 =>
    let sum := tsPair c ts r 1
    if sum.isZero && !sum.isNeg then (tsPut s d n ts r 3 [0, 0xFF80, 0], f)
    else
      let (rc, f1) := fn 4 sum
      let (cc, f2) := rnBF16 rc
      let (lg, f3) := fn 2 sum
      let (l, f4) := addX (bf16 (tsGet c ts r 0)) lg
      let (hi, lo, f5) := pairOf l
      (tsPut s d n ts r 3 [cc, hi, lo], Flags.all [f, tsFlags c ts r 1, f1, f2, f3, f4, f5])
  | _ =>
    let k := tsGet c ts r 6 + 65536 * tsGet c ts r 7
    let (v, f1) := if k = 0 then (Num.zero false, Flags.none) else roundX (ndiv 48 (tsPair c ts r 10) (.fin false k 0))
    let (var, f2) := rnBF16 v
    let (w, f3) := addX v (bf16 e.x2.toNat)
    let (rt, f4) := fn 5 w
    let (rstd, f5) := rnBF16 rt
    let fp := if k = 0 then Flags.none else tsFlags c ts r 10
    (tsPut s d n ts r 12 [var, rstd], Flags.all [f, fp, f1, f2, f3, f4, f5])

/-! In the engine. -/

/-- First poisoned unit of the source's rows. -/
def rsPoison (s : State) (d : Nat) (o : VxOp) (v : Desc) : Option Word :=
  if o.s0.kind = 2 then viewPoison s d v else none

/-- The tiles that a conveyor source still owes are popped as far as they are there (R85, R166); `fuel` bounds them.
Tells whether a slot's stored bits could not be corrected (R195). -/
def rsPop (d n k : Nat) : Nat → State × List Tile × Bool → State × List Tile × Bool
  | 0, r => r
  | fuel + 1, (s, got, bad) =>
    match tget [] (getCore s d n).conv k with
    | [] => (s, got, bad)
    | t :: rest =>
      let (s, b) := coreEcc s d n 4 t.upset
      rsPop d n k fuel (modCore s d n fun c => { c with conv := tset c.conv k rest }, got ++ [t], bad || b)

/-- Storage inside the core that an RS form reads: its source tiles and the statistics tile (R195). -/
def rsUnits (o : VxOp) : List Nat :=
  unitTile (sfTs o) :: (if o.s0.kind = 1 then (List.range (rsNt o)).map fun j => unitTile (o.s0.num.toNat + j) else [])

/-- An RS form that reads data: it pops its conveyor tiles in order, waiting while the conveyor is empty, then works row
by row.  DESIGN CHOICE (log 131): each row is read before it is written and after the rows above it are written, which
decides what a P destination that overlaps the source makes of the rows below. -/
def rsRun (s : State) (d n : Nat) (o : VxOp) (e : EngOp) (cycles : Nat)
    (row : EngOp → State × Flags → Nat → State × Flags) : EngRes :=
  let owes := if o.s0.kind = 3 then rsNt o - e.got.length else 0
  let (s, got, bad) := rsPop d n o.s0.num.toNat owes (s, e.got, false)
  let e := { e with begun := true, got := got }
  if bad then .fault s fcMEM 0
  else if o.s0.kind = 3 && got.length < rsNt o then .waiting s e
  else match readUnits s d n (rsUnits o) with
    | (s, true) => .fault s fcMEM 0
    | (s, false) =>
      let s := if o.s0.kind = 2 then viewErrors s d e.d0 else s
      match rsPoison s d o e.d0 with
      | some x => .fault s fcMEM x
      | none =>
        let (s, f) := (List.range (rsRows o e.d0)).foldl (row e) (sfeCycles s d n cycles, Flags.none)
        .done (setFlags s (sfeBlk d n) 0 f)

/-- Levels of a tree over `n`: ceil(log2 n). -/
def treeLevels (n : Nat) : Nat := if n ≤ 1 then 0 else Nat.log2 (n - 1) + 1

/-- RSMAX (R167). -/
def runRsmax (s : State) (d n : Nat) (o : VxOp) (e : EngOp) : EngRes :=
  rsRun s d n o e (5 * rsNt o + 7 + treeLevels (rsNt o)) (rsmaxRow d n o)

/-- RSEXP (R168). -/
def runRsexp (s : State) (d n : Nat) (o : VxOp) (e : EngOp) : EngRes :=
  rsRun s d n o e (4 * rsNt o) (rsexpRow d n o)

/-- RSMOM (R169, R170). -/
def runRsmom (s : State) (d n : Nat) (o : VxOp) (e : EngOp) : EngRes :=
  rsRun s d n o e (2 * rsNt o + 4 * (treeLevels (rsNt o) + 1) + 2) (rsmomRow d n o)

/-- RSCTL (R171); only the finishing forms read the statistics tile. -/
def runRsctl (s : State) (d n : Nat) (o : VxOp) (e : EngOp) : EngRes :=
  match readUnits s d n (if rsFn o < 2 then [] else [unitTile (sfTs o)]) with
  | (s, true) => .fault s fcMEM 0
  | (s, false) =>
    let (s, f) := (List.range 32).foldl (rsctlRow d n o e) (sfeCycles s d n (if rsFn o < 2 then 2 else 14), Flags.none)
    .done (setFlags s (sfeBlk d n) 0 f)

end Sys2Proof.Machine
end

