-- ==== Sys2Proof/Machine/Engines.lean ====
section
/-! DEFINITION. The engine queues at work (R62, R63, R84-R86, R89): each engine runs its queue in order. -/

namespace Sys2Proof.Machine

/-- What engine `k` makes of an instruction of its queue (R62). -/
def runEng (s : State) (d n k : Nat) (e : EngOp) : EngRes :=
  match e.ins with
  | .mma _ _ o => runMma s d n k o e
  | .mmao _ _ o => runMmao s d n k o e
  | .mout _ _ o => runMout s d n k o e
  | .minit _ _ o => runMinit s d n k o e
  | .vop _ _ o => runVop s d n o e
  | .vlp _ _ o => runVlp s d n o e
  | .vlpld _ _ o => runVlpld s d n o e
  | .vperm _ _ o => runVperm s d n o e
  | .vred _ _ o => runVred s d n o e
  | .vopt _ _ o => runVopt s d n o e
  | .sfn _ _ o => runSfn s d n o e
  | .sfd _ _ o => runSfd s d n o e
  | .stld _ _ o => runStld s d n o e
  | .rsmax _ _ o => runRsmax s d n o e
  | .rsexp _ _ o => runRsexp s d n o e
  | .rsmom _ _ o => runRsmom s d n o e
  | .rsctl _ _ o => runRsctl s d n o e
  | _ => .done s

/-- Accumulator that an MM instruction of ME `k` uses. -/
def accOf (i : Instr) : Option (BitVec 3) :=
  match i with
  | .mma _ _ o | .mmao _ _ o | .mout _ _ o | .minit _ _ o => some o.acc
  | _ => none

/-- Position in queue `k` of the instruction to run next (R63).  While an ME holds a finished tile, the first one that
is not done is the one that holds it, and only an MMA or MINIT on another accumulator may follow it (R85). -/
def nextOp (c : CoreSt) (k : Nat) : Option Nat :=
  let q := engQueue c k
  match q.findIdx? (fun e => !e.done) with
  | none => none
  | some i =>
    if tget none c.held k = none then some i
    else
      let own := (q.drop i).head?.bind fun e => accOf e.ins
      match (q.drop (i + 1)).findIdx? (fun e => !e.done) with
      | none => none
      | some j =>
        match (q.drop (i + 1 + j)).head? with
        | some e => if inEngineOnly e.ins && accOf e.ins != own then some (i + 1 + j) else none
        | none => none

/-- Instruction `i` of queue `k` has executed. -/
def markDone (s : State) (d n k i : Nat) : State :=
  modCore s d n fun c => { c with eng := tset c.eng k ((engQueue c k).modify i fun e => { e with done := true }) }

/-- Instruction `i` of queue `k` has come as far as `e` tells. -/
def putOp (s : State) (d n k i : Nat) (e : EngOp) : State :=
  modCore s d n fun c => { c with eng := tset c.eng k ((engQueue c k).set i e) }

/-- Engine `k` runs its queue as far as it goes (R63); `fuel` bounds the instructions. -/
def pumpEng : Nat → State → Nat → Nat → Nat → State
  | 0, s, _, _, _ => s
  | fuel + 1, s, d, n, k =>
    let c := getCore s d n
    match nextOp c k with
    | none => s
    | some i =>
      match (engQueue c k).drop i with
      | [] => s
      | e :: _ =>
        match runEng s d n k e with
        | .blocked => s
        | .waiting s e => putOp s d n k i e
        | .done s => pumpEng fuel (markDone s d n k i) d n k
        | .held s => pumpEng fuel s d n k
        | .fault s code a => coreFault s d n (k + 1) code (slotAddr s d n e.pc) a

/-- Every engine of a core runs as far as it goes: the MEs, then the VE and the SFE that read their conveyors. -/
def pump (s : State) (d n : Nat) : State :=
  (List.range 6).foldl (fun s k => pumpEng ((engQueue (getCore s d n) k).length + 1) s d n k) s

end Sys2Proof.Machine
end

