-- ==== Sys2Proof/Machine/Issue.lean ====
section
/-! DEFINITION. The issue of an instruction (R63-R66, R75, R83, R89): the shared gate. -/

namespace Sys2Proof.Machine

/-- Semaphore-wait and signal fields of an instruction (R64). -/
def hdrOf (i : Instr) : Hdr :=
  match i with
  | .movi _ h _ | .alu _ h _ | .ldx _ h _ | .stx _ h _ | .dld _ h _ | .dst _ h _ | .dset _ h _ | .dadv _ h _
  | .srd _ h _ | .swr _ h _ | .dq _ h _ | .cq _ h _ | .pq _ h _ | .nop _ h _ | .br _ h _ | .call _ h _ | .ret _ h _
  | .loop _ h _ | .brk _ h _ | .halt _ h _ | .ssig _ h _ | .swait _ h _ | .rsig _ h _ | .fence _ h _ | .bar _ h _
  | .qpost _ h _ | .draw _ h _ | .retire _ h _ | .account _ h _ | .take _ h _ | .send _ h _ | .wait _ h _
  | .mma _ h _ | .mmao _ h _ | .mout _ h _ | .minit _ h _ | .vop _ h _ | .vlp _ h _ | .vlpld _ h _ | .vperm _ h _
  | .vred _ h _ | .vopt _ h _ | .sfn _ h _ | .sfd _ h _ | .stld _ h _ | .rsmax _ h _ | .rsexp _ h _ | .rsmom _ h _
  | .rsctl _ h _ => h
  | _ => ⟨false, 0, false, 0⟩

/-- The sequencer's part of an instruction at offset `pc`. -/
abbrev Body := State → Nat → Issued

/-- The part of an instruction that a held issue tries again. -/
def issueBody (d n : Nat) (i : Instr) : Body := fun s pc =>
  match i with
  | .movi _ _ o => bodyMovi s d n pc o
  | .alu _ _ o => bodyAlu s d n pc o
  | .ldx _ _ o => bodyLdx s d n o
  | .stx _ h o => bodyStx s d n pc h o
  | .dld _ _ o => bodyDld s d n o
  | .dst _ h o => bodyDst s d n pc h o
  | .dset _ _ o => bodyDset s d n pc o
  | .dadv _ _ o => bodyDadv s d n pc o
  | .srd _ _ o => bodySrd s d n pc o
  | .swr _ _ o => bodySwr s d n pc o
  | .dq _ _ o => bodyDq s d n pc o
  | .cq _ h o => bodyCq s d n pc h o
  | .pq _ h o => bodyPq s d n pc h o
  | .nop _ _ _ => bodyNop s pc
  | .br _ _ o => bodyBr s d n pc o
  | .call _ _ o => bodyCall s d n pc o
  | .ret _ _ _ => bodyRet s d n
  | .loop _ _ o => bodyLoop s d n pc o
  | .brk _ _ _ => bodyBrk s d n
  | .halt _ _ _ => bodyHalt s
  | .ssig _ _ o => bodySsig s d n pc o
  | .swait _ _ o => bodySwait s d n pc o
  | .rsig _ _ o => bodyRsig s d n pc o
  | .fence _ _ _ => bodyFence s d n pc
  | .bar _ _ o => bodyBar s d n o
  | .qpost _ _ o => bodyQpost s d n pc o
  | .draw _ _ o => bodyDraw s d n pc o
  | .retire _ _ o => bodyRetire s d n pc o
  | .account _ _ o => bodyAccount s d n pc o
  | .take _ _ o => bodyTake s d n pc o
  | .send _ _ o => bodySend s d n pc o
  | .wait _ _ o => bodyWait s d n pc o
  | .mma _ _ o => bodyMm s d n pc .mma i o
  | .mmao _ _ o => bodyMm s d n pc .mmao i o
  | .mout _ _ o => bodyMm s d n pc .mout i o
  | .minit _ _ o => bodyMm s d n pc .minit i o
  | .vop _ _ o => bodyVop s d n pc i o
  | .vlp _ _ o => bodyVlp s d n pc i o
  | .vlpld _ _ o => bodyVlpld s d n pc i o
  | .vperm _ _ o => bodyVperm s d n pc i o
  | .vred _ _ o => bodyVred s d n pc i o
  | .vopt _ _ o => bodyVopt s d n pc i o
  | .sfn _ _ o => bodySfn s d n pc i o
  | .sfd _ _ o => bodySfd s d n pc i o
  | .stld _ _ o => bodyStld s d n pc i o
  | .rsmax _ _ o => bodyRsmax s d n pc i o
  | .rsexp _ _ o => bodyRsexp s d n pc i o
  | .rsmom _ _ o => bodyRsmom s d n pc i o
  | .rsctl _ _ o => bodyRsctl s d n pc i o
  | _ => .done s (pc + 16)

/-- The program counter moves to offset `p`, loops that end there taken or left (R75).  An offset that CORE_PC cannot
hold lies outside backed core memory: the fetch there faults (R89). -/
def landAt (s : State) (d n p : Nat) : State :=
  let (c, q) := arrive ((getCore s d n).loops.length + 1) (getCore s d n) p
  let s := setCore s d n c
  if q < 0x200000 then setPc s d n q else coreFault s d n 0 fcADDR (slotAddr s d n q) (slotAddr s d n q)

/-- An instruction counted as issued (R93). -/
def countIssue (s : State) (d n : Nat) : State := bump s (coreBlk d n) CNT_ISSUE 1

/-- The held instruction. -/
def setHold (s : State) (d n : Nat) (h : Option Hold) : State := modCore s d n fun c => { c with hold := h }

/-- Whether the instruction buffer holds offset `pc`. -/
def inBuffer (c : CoreSt) (pc : Nat) : Bool :=
  match c.ibuf with
  | some b => decide (b ≤ pc) && decide (pc < b + 4096)
  | none => false

/-- The fetch of offset `pc` into the 4 KiB instruction buffer (R83).  DESIGN CHOICE (log 133): a fetch outside the buffer
fills it with the 4 KiB-aligned block of core memory that holds the instruction. -/
def fetchBuffer (s : State) (d n pc : Nat) : State :=
  modCore s d n fun c => { c with ibuf := if inBuffer c pc then c.ibuf else some (pc / 4096 * 4096) }

/-- Die-local address of an offset in a core's memory (R81). -/
def coreAddr (n pc : Nat) : Nat := coreMemBase + n * 0x200000 + pc

/-- How many OP values, from 0 on, a CLASS defines (R65, R78-R80, R99, R123, R149). -/
def classOps (cls : Nat) : Nat :=
  match cls with
  | 1 => 4
  | 2 => 6
  | 3 => 7
  | 4 => 13
  | 5 => 8
  | 6 => 7
  | 7 => 1
  | _ => 0

/-- Whether the 16 bytes of an instruction word have a reserved CLASS or a reserved OP (R64, R65). -/
def wordReserved (bs : List Byte) : Bool :=
  let b := (bs.getD 15 0).toNat
  classOps (b / 16) ≤ b % 16

/-- The fetch of an instruction (R64, R65, R83, R195): the state after it, and the fault it finds, if any: a poisoned word
in core memory, or a word whose CLASS or OP is reserved.  A parity error of the buffer discards it and fetches again. -/
def fetchWord (s : State) (d n pc : Nat) : State × Option (Nat × Word) :=
  let l := coreAddr n pc
  let upset := tget .clean (getCore s d n).upsets unitIbuf
  let s := if upset = .clean then s
    else modCore (mendUnit (coreEcc s d n 8 upset).1 d n unitIbuf) d n fun c => { c with ibuf := none }
  let (s, r) := if inBuffer (getCore s d n) pc then (s, .bytes (peek s d l 16)) else memRead s d l 16 .clean
  let t := fetchBuffer s d n pc
  match r with
  | .poison u => (s, some (fcMEM, globalAddr s d u))
  | .bytes bs => (t, if wordReserved bs then some (fcILL, 0) else none)

/-- Whether offset `pc` holds an instruction word that can be taken: delivered without an error, CLASS and OP defined. -/
def fetchOk (s : State) (d n pc : Nat) : Bool :=
  (inBuffer (getCore s d n) pc || memSound s d (coreAddr n pc) 16) && !wordReserved (peek s d (coreAddr n pc) 16)

/-- The register units inside the core that an instruction reads at issue (R63, R195: class 0x07). -/
def namedUnits (i : Instr) : List Nat :=
  let x := fun k : BitVec 5 => if k = 0 then [] else [unitX k.toNat]
  let a := fun k : BitVec 4 => [unitA k.toNat]
  let src := fun p : Src => if p.kind = 2 then a (descNum p.num) else if p.kind = 4 then x p.num else []
  let vx := fun o : VxOp => src o.s0 ++ src o.s1 ++ src o.s2 ++ (if o.dkind then a (descNum o.dnum) else [])
  let sem := fun o : SeqOp => [unitSem (bits o.imm.toNat 5 0)]
  let h := hdrOf i
  (if h.wen then [unitSem h.wsem.toNat] else []) ++ match i with
  | .alu _ _ o => x o.xa ++ (if o.func.getLsbD 6 then [] else x o.xb)
  | .br _ _ o => if bits o.func.toNat 2 0 = 0 then [] else x o.xa ++ x o.xb
  | .ldx _ _ o | .dld _ _ o | .cq _ _ o | .pq _ _ o | .rsig _ _ o | .draw _ _ o | .retire _ _ o | .take _ _ o
  | .send _ _ o => x o.xa
  | .stx _ _ o | .dq _ _ o | .qpost _ _ o => x o.xa ++ x o.xb
  | .dst _ _ o => x o.xa ++ a o.ad
  | .dset _ _ o => x o.xb ++ a o.ad
  | .dadv _ _ o => a o.ad
  | .swr _ _ o => x o.xb
  | .srd _ _ o =>
    let q := bits o.imm.toNat 11 3
    if 0x40 ≤ q && q < 0x80 then [unitSem (q - 0x40)] else []
  | .loop _ _ o => if o.func.getLsbD 0 then x o.xa else []
  | .ssig _ _ o | .swait _ _ o => sem o
  | .wait _ _ o => ((List.range 64).filter fun k => o.imm.getLsbD k).map unitSem
  | .mma _ _ o => a o.da ++ a o.db
  | .mmao _ _ o => a o.da ++ a o.db ++ a o.dout
  | .mout _ _ o => a o.dout
  | .minit _ _ o => a o.da
  | .vop _ _ o | .vlp _ _ o | .vperm _ _ o | .vred _ _ o | .sfn _ _ o | .sfd _ _ o | .stld _ _ o | .rsmax _ _ o
  | .rsexp _ _ o | .rsmom _ _ o | .rsctl _ _ o => vx o
  | .vlpld _ _ o => x o.xa
  | .vopt _ _ o => a o.dw ++ a o.dg ++ a o.dm ++ a o.dv ++ x o.xp
  | _ => []

/-- What the sequencer does with what it found (R66, R89).  `s0`: the state at issue, to which a precise fault and a
hold return but for the refusal that the router counted. -/
def settle (s0 : State) (d n pc : Nat) (i : Instr) (r : Issued) : State :=
  let h := hdrOf i
  let here := slotAddr s0 d n pc
  match r with
  | .fault s code a =>
    let s := if h.wen then setSem s d n h.wsem.toNat (semVal s d n h.wsem.toNat + 1) else s
    coreFault s d n 0 code here a
  | .late s code a => coreFault (landAt (countIssue s d n) d n (pc + 16)) d n 0 code here a
  | .hold why => setHold s0 d n (some ⟨why, i⟩)
  | .done s p => complete (landAt (countIssue s d n) d n p) d n h.sen h.ssem.toNat 0 here
  | .sent s => pump (landAt (countIssue s d n) d n (pc + 16)) d n
  | .wait s why =>
    let s := setHold (countIssue s d n) d n (some ⟨why, i⟩)
    if why = .halt then complete s d n h.sen h.ssem.toNat 0 here else s
  | .ask s =>
    let s := if h.wen then setSem s d n h.wsem.toNat (semVal s d n h.wsem.toNat + 1) else s
    setHold s d n (some ⟨.load, i⟩)
  | .gone s => countIssue s d n

/-- The issue of an instruction by a core (R63, R66): nothing issues unless the core is in RUN and no issue is held; the
word at CORE_PC is fetched (R65, R83) and the registers that the instruction names are read (R195); with WEN set it waits
for the semaphore and then takes one from it. -/
def seqIssue (s : State) (d n : Nat) (i : Instr) (body : Body) : State :=
  let c := getCore s d n
  if coreState s d n ≠ stRUN || c.hold.isSome || c.orphans ≠ [] then s
  else
    let pc := pcOf s d n
    let h := hdrOf i
    if !pcBacked pc then coreFault s d n 0 fcADDR (slotAddr s d n pc) (slotAddr s d n pc)
    else match fetchWord s d n pc with
    | (s, some (code, x)) => coreFault s d n 0 code (slotAddr s d n pc) x
    | (s, none) =>
      match readUnits s d n (if (getCore s d n).upsets.isEmpty then [] else namedUnits i) with
      | (s, true) => coreFault s d n 0 fcMEM (slotAddr s d n pc) 0
      | (s, false) =>
        let q := h.wsem.toNat
        if h.wen then
          (if semVal s d n q = 0 then setHold s d n (some ⟨.sem, i⟩)
           else settle s d n pc i (body (setSem s d n q (semVal s d n q - 1)) pc))
        else settle s d n pc i (body s pc)

/-- The instruction whose issue is held for a reason. -/
def heldFor (s : State) (d n : Nat) (why : HoldWhy) : Option Instr :=
  match (getCore s d n).hold with
  | some h => if h.why = why then some h.ins else none
  | none => none

/-- A held issue is tried again. -/
def reissue (s : State) (d n : Nat) (why : HoldWhy) : State :=
  match heldFor s d n why with
  | some i => seqIssue (setHold s d n none) d n i (issueBody d n i)
  | none => s

/-- A held instruction completes: issue goes on after it, and SEN signals (R66). -/
def release (s : State) (d n : Nat) (i : Instr) : State :=
  let here := slotAddr s d n (pcOf s d n)
  let h := hdrOf i
  complete (landAt (setHold s d n none) d n (pcOf s d n + 16)) d n h.sen h.ssem.toNat 0 here

end Sys2Proof.Machine
end

