-- ==== Sys2Proof/Machine/CoreEvents.lean ====
section
/-! DEFINITION. What happens to a core beside issue: completions (R66), data that returns (R78), holds that end (R63, R66,
R73, R74), conveyors (R85), WAIT (R87), the watchdog (R91), DONE (R77), and the writes of its registers with behaviour of
their own (R71, R94, R96, R161, R273, R277). -/

namespace Sys2Proof.Machine

/-- The oldest instruction that engine `k` has executed completes (R66). -/
def completeEng (s : State) (d n k : Nat) : State :=
  let q := engQueue (getCore s d n) k
  match q.findIdx? (·.done) with
  | none => s
  | some i =>
    let s := modCore s d n fun c => { c with eng := tset c.eng k (q.eraseIdx i) }
    match q.drop i with
    | [] => s
    | e :: _ =>
      let h := hdrOf e.ins
      complete s d n h.sen h.ssem.toNat (k + 1) (slotAddr s d n e.pc)

/-- The fault of a request whose answer brings STATUS 1, poison, or 2, an address error (R326). -/
def answerFault (s : State) (d n pc st : Nat) (a : Word) : State :=
  coreFault s d n 0 (if st = 2 then fcADDR else fcMEM) (slotAddr s d n pc) (if st = 2 then a else unitAddr a)

/-- Status of the answer to a store; none while it has not arrived, from a die below Run before its exit (R420). -/
def storeStatus (s : State) (d n : Nat) (o : Owed) : Option Nat :=
  if o.done then (if unserved s d (addrDie o.addr) then none else some 0) else (answersOf s d (unitStore n) o.tag 1).map fun l => (l.headD (0, [])).1

/-- The oldest acknowledged STX or DST completes (R66, R78). -/
def completeStore (s : State) (d n : Nat) : State :=
  let q := (getCore s d n).stores
  match q.findIdx? fun o => (storeStatus s d n o).isSome with
  | none => s
  | some i =>
    match q.drop i with
    | [] => s
    | o :: _ =>
      let st := (storeStatus s d n o).getD 0
      let s := if o.done then s else dropAnswers s d (unitStore n) o.tag 1
      let s := modCore s d n fun c => { c with stores := q.eraseIdx i }
      if st = 0 then complete s d n o.sen o.ssem.toNat 0 (slotAddr s d n o.pc) else answerFault s d n o.pc st o.addr

/-- The first command of a core that has been performed and whose writes are all answered: its place, and its worst
STATUS. -/
def gcAnswered (s : State) (d c : Nat) : List GcOwed → Option (Nat × GcOwed × Nat)
  | [] => none
  | o :: q =>
    let rest := (gcAnswered s d c q).map fun r => (r.1 + 1, r.2)
    match o.stage with
    | .writing tag n =>
      match answersOf s d (unitGc c) tag n with
      | some l => some (0, o, worstStatus l)
      | none => rest
    | _ => rest

/-- A performed CQ completes once its writes are acknowledged (R294); one that another module answers with an error
ends as a refused command and does not complete (R310).  DESIGN CHOICE (log 135): no engine executes a CQ, and R90 names no
source for an overflow by its SEN completion; SRC records 0 with the CQ's own address. -/
def completeGc (s : State) (d n : Nat) : State :=
  let c := n / 16
  let q := (getCore s d n).gcOwed
  match gcAnswered s d c q with
  | none => s
  | some (i, o, st) =>
    let s := match o.stage with
      | .writing tag k => forgetTags s d (unitGc c) tag k
      | _ => s
    if st = 0 then
      complete (modCore s d n fun x => { x with gcOwed := q.eraseIdx i }) d n o.sen o.ssem.toNat 0 (slotAddr s d n o.pc)
    else
      gcError (modCore s d n fun x => { x with gcOwed := q.modify i fun o => { o with stage := .failed } }) d c
        (if st = 2 then 2 else 3)

/-- The oldest PQ completes: its unit has accepted the request (R244). -/
def completePlu (s : State) (d n : Nat) : State :=
  match (getCore s d n).pluOwed with
  | [] => s
  | o :: q =>
    complete (modCore s d n fun x => { x with pluOwed := q }) d n o.sen o.ssem.toNat 0 (slotAddr s d n o.pc)

/-- A WAIT ends and issue goes on (R87). -/
def wakeCore (s : State) (d n : Nat) (i : Instr) : State := release (setCoreState s d n stRUN) d n i

/-- A core in WAIT with MODE 1 as its units have drained (R87: E2): a wake condition that is true abandons the entry, and
the WAIT completes; otherwise the core enters HOLD. -/
def settleWait (s : State) (d n : Nat) : State :=
  match heldFor s d n .wait with
  | some (.wait b h o) =>
    if coreState s d n = stWAIT && rf s (coreBlk d n) CORE_PWR_MODE = 1 && drained (getCore s d n) && wakeTrue s d n o then
      wakeCore s d n (.wait b h o)
    else enterHold s d n
  | _ => enterHold s d n

/-- INSTRUCTION_COMPLETE (R66). -/
def execInstructionComplete (c : CoreId) (u : ExecUnit) (s : State) : Out :=
  let d := c.die.val
  let n := c.n.val
  let t := match u with
    | .me k => completeEng s d n k.val
    | .ve => completeEng s d n 4
    | .sfe => completeEng s d n 5
    | .store => completeStore s d n
    | .gc => completeGc s d n
    | .plu => completePlu s d n
  onClocked d s (settleWait t d n)

/-- What a load or a peer write that issue waits for has brought. -/
inductive Answer where
  /-- nothing yet -/
  | waiting
  | bytes (bs : List Byte)
  /-- STATUS 1 or 2, with the address concerned -/
  | failed (st : Nat) (a : Word)
  deriving DecidableEq, Repr

/-- The answer for the request of `len` bytes at `a` that issue waits for: of another module (R326), or of the home on
this one (R190, R195); a route over a down edge returns poison (R186). -/
def loadAnswer (s : State) (d n : Nat) (a : Word) (len : Nat) (ecc : Ecc) : State × Answer :=
  match (getCore s d n).loadTag with
  | some tag =>
    match answersOf s d (unitCore n) tag 1 with
    | none => (s, .waiting)
    | some l =>
      let x := l.headD (0, [])
      (modCore (dropAnswers s d (unitCore n) tag 1) d n fun c => { c with loadTag := none },
        if x.1 = 0 then .bytes (slice x.2 0 len) else .failed x.1 (if x.1 = 2 then a else unitAddr a))
  | none =>
    let t := addrDie a
    if unserved s d t then (s, .waiting)
    else if routeDown s d t then (s, .failed 1 (unitAddr a))
    else match homeRead (carry s d (some (n / 16)) t (addrLocal a) len false) t (addrLocal a) len ecc with
      | (s, .poison u) => (s, .failed 1 (globalAddr s t u))
      | (s, .bytes bs) => (s, .bytes bs)

/-- A held load takes its data: `put` places it; an error faults the core (R89). -/
def loadReturn (s : State) (d n : Nat) (i : Instr) (a : Word) (len : Nat) (ecc : Ecc)
    (put : State → List Byte → State) : State :=
  match loadAnswer s d n a len ecc with
  | (_, .waiting) => s
  | (s, .bytes bs) => release (put s bs) d n i
  | (s, .failed st x) =>
    coreFault s d n 0 (if st = 2 then fcADDR else fcMEM) (slotAddr s d n (pcOf s d n)) x

/-- LOAD_DATA_RETURN (R78, R204, R244, R284, R294): the data of an LDX or DLD; or what another module has answered to the
issue of a DQ, CQ, PQ or queue instruction, which is then tried again. -/
def execLoadDataReturn (c : CoreId) (ecc : Ecc) (s : State) : Out :=
  let d := c.die.val
  let n := c.n.val
  onClocked d s <|
    match heldFor s d n .load with
    | some (.ldx b h o) =>
      loadReturn s d n (.ldx b h o) (xaImm s d n o) 8 ecc fun s bs => setX s d n o.xd (leWord bs)
    | some (.dld b h o) =>
      loadReturn s d n (.dld b h o) (xaImm s d n o) 64 ecc fun s bs => setA s d n o.ad (descOf bs)
    | some i =>
      match askedOf s d n with
      | .answer _ _ _ => seqIssue (setHold s d n none) d n i (issueBody d n i)
      | _ => s
    | none => s

/-- ENGINE_QUEUE_FREE (R63): issue stalled on a full queue is tried again. -/
def execEngineQueueFree (c : CoreId) (s : State) : Out :=
  onClocked c.die.val s (reissue s c.die.val c.n.val .queue)

/-- SEMAPHORE_WAIT_RELEASE (R66, R71). -/
def execSemaphoreWaitRelease (c : CoreId) (s : State) : Out :=
  onClocked c.die.val s (reissue s c.die.val c.n.val .sem)

/-- FENCE_RELEASE (R73). -/
def execFenceRelease (c : CoreId) (s : State) : Out :=
  onClocked c.die.val s (reissue s c.die.val c.n.val .fence)

/-- Members of a barrier (R74). -/
def barMembers (s : State) (d : Nat) (cl : Option Cl) (b : Nat) : List Nat :=
  match cl with
  | none => (getDie s d).participants.map (·.val)
  | some c => ((List.range 16).filter fun k => (regWord s (clBlk d c.val + 8 + 8 * b)).getLsbD k).map fun k => c.val * 16 + k

/-- BARRIER_RELEASE (R74): once every participant has arrived, all are released together. -/
def execBarrierRelease (d : Die) (cl : Option Cl) (b : Fin 8) (s : State) : Out :=
  let k := barKey cl.isNone (match cl with | some c => c.val | none => 0) b.val
  let here := tget [] (getDie s d.val).arrived k
  let all := barMembers s d.val cl b.val
  onClocked d.val s <|
    if here = [] || !(all.all fun n => here.any fun x => x.val == n) then s
    else
      let s := modDie s d.val fun x => { x with arrived := tset x.arrived k [] }
      here.foldl (fun s x => match heldFor s d.val x.val .barrier with
        | some i => release s d.val x.val i
        | none => s) s

/-- CONVEYOR_SLOT_FREE (R85, R86): a held tile goes to the tail of its conveyor. -/
def execConveyorSlotFree (c : CoreId) (k : Fin 4) (s : State) : Out :=
  let d := c.die.val
  let n := c.n.val
  onClocked d s <|
    match tget none (getCore s d n).held k.val with
    | none => s
    | some t =>
      if convSlots ≤ (tget [] (getCore s d n).conv k.val).length then s
      else
        let s := modCore s d n fun x => { convPush x k.val t with held := tset x.held k.val none }
        let s := match (engQueue (getCore s d n) k.val).findIdx? (fun e => !e.done) with
          | some i => markDone s d n k.val i
          | none => s
        pump s d n

/-- CORE_WAKE (R87). -/
def execCoreWake (c : CoreId) (request : Bool) (s : State) : Out :=
  let d := c.die.val
  let n := c.n.val
  onClocked d s <|
    match heldFor s d n .wait with
    | some (.wait b h o) => if request || wakeTrue s d n o then wakeCore s d n (.wait b h o) else s
    | _ => s

/-- CORE_WTIME_EXPIRY (R87): the timer has run out during a WAIT that enables it. -/
def execCoreWtimeExpiry (c : CoreId) (s : State) : Out :=
  let d := c.die.val
  let n := c.n.val
  onClocked d s <|
    match heldFor s d n .wait with
    | some (.wait b h o) =>
      if o.func.getLsbD 0 then wakeCore (wf s (coreBlk d n) CORE_WTIME_WTIME 0) d n (.wait b h o) else s
    | _ => s

/-- WATCHDOG (R91): the count has reached LIMIT.  The spec names no faulting instruction for it: CORE_FPC takes a free
word (log 2).  DESIGN CHOICE (log 134): R90 names no source for it; SRC records 0, the sequencer, whose issue it counts. -/
def execWatchdog (c : CoreId) (s : State) : Out :=
  let d := c.die.val
  let n := c.n.val
  let b := coreBlk d n
  onClocked d s <|
    if rf s b CORE_WDOG_LIMIT ≠ 0
      && (coreState s d n = stRUN || (coreState s d n = stWAIT && rf s b CORE_PWR_MODE = 0)) then
      let (w, s) := drawFree s
      coreFault s d n 0 fcWDOG w 0
    else s

/-- CORE_DONE (R77). -/
def execCoreDone (c : CoreId) (s : State) : Out :=
  let d := c.die.val
  let n := c.n.val
  onClocked d s <|
    match heldFor s d n .halt with
    | some _ =>
      if drained (getCore s d n) then
        setCoreState (landAt (setHold s d n none) d n (pcOf s d n + 16)) d n stDONE
      else s
    | none => s

/-- CORE_CLRCNT (R94). -/
def execCoreClrcnt (c : CoreId) (s : State) : Out :=
  onUnit c.die.val (coreBlk c.die.val c.n.val + 8) (fset 0 CORE_CTRL_CLRCNT 1) s (coreClear s c.die.val c.n.val)

/-- CORE_RESET (R94, R96). -/
def execCoreReset (c : CoreId) (run : Bool) (s : State) : Out :=
  onUnit c.die.val (coreBlk c.die.val c.n.val + 8) (fset (fset 0 CORE_CTRL_RESET 1) CORE_CTRL_RUN (b2n run)) s
    (if run then coreRestart s c.die.val c.n.val else coreReset s c.die.val c.n.val)

/-- CORE_RUN (R94). -/
def execCoreRun (c : CoreId) (s : State) : Out :=
  onUnit c.die.val (coreBlk c.die.val c.n.val + 8) (fset 0 CORE_CTRL_RUN 1) s (coreRun s c.die.val c.n.val)

/-- SEM_WRITE (R71): it replaces the value, and is no signal. -/
def execSemWrite (c : CoreId) (k : BitVec 6) (v : Word) (s : State) : Out :=
  onUnit c.die.val (coreBlk c.die.val c.n.val + 0x200 + 8 * k.toNat) v s
    (setSem s c.die.val c.n.val k.toNat (v.toNat % 65536))

/-- SC_CLRCNT (R277). -/
def execScClrcnt (c : ClId) (s : State) : Out :=
  onUnit c.die.val (clBlk c.die.val c.cl.val + 0x100) 1 s (scClear s c.die.val c.cl.val)

/-- SC_HEAD_WRITE (R273). -/
def execScHeadWrite (c : ClId) (v : Word) (s : State) : Out :=
  onUnit c.die.val (clBlk c.die.val c.cl.val + 0x108) v s (scHead s c.die.val c.cl.val v)

/-- SC_TAIL_WRITE (R273). -/
def execScTailWrite (c : ClId) (v : Word) (s : State) : Out :=
  onUnit c.die.val (clBlk c.die.val c.cl.val + 0x110) v s (scTail s c.die.val c.cl.val v)

/-- SC_EVENT (R277). -/
def execScEvent (c : ClId) (v : Word) (s : State) : Out :=
  onUnit c.die.val (clBlk c.die.val c.cl.val + 0x128) v s (scEvent s c.die.val c.cl.val v)

/-- SLOT_SWAP (R161): the shadow bank of a user slot becomes the active one, and waiting lookups go on. -/
def execSlotSwap (c : CoreId) (k : Fin 4) (s : State) : Out :=
  onClocked c.die.val s (pump (slotSwap s c.die.val c.n.val k.val) c.die.val c.n.val)

end Sys2Proof.Machine
end

