-- ==== Sys2Proof/Machine/Link.lean ====
section
/-! DEFINITION. The Virom Link (R316-R331): flits and retry, credits on the receive side, lanes, training and negotiation,
laser cartridges, and the writes of LK_CTRL (R344). -/

namespace Sys2Proof.Machine

/-- LK_STATUS.STATE (R344): 0 DARK, 1 TRAINING, 2 NEGOTIATING, 3 UP, 4 DOWN, 5 SERVICE. -/
def lkState (s : State) (d : Nat) : Nat := rf s (linkBlk d) LK_STATUS_STATE

/-- STATE set. -/
def setLkState (s : State) (d v : Nat) : State := wf s (linkBlk d) LK_STATUS_STATE v

/-! Training (R327). -/

/-- A link enters training at its first phase. -/
def enterSignal (s : State) (d : Nat) (retrain : Bool) : State :=
  modLink (setLkState s d 1) d fun l =>
    { l with phase := .signal, retrain := retrain, negSent := false, negAcked := false, negGot := false, swapRx := none,
             nextTx := none, ctlq := [] }

/-- A row's cartridge. -/
def getRow (s : State) (r : Nat) : RowSt := tget RowSt.reset s.rows r

/-- A row's cartridge changed. -/
def modRow (s : State) (r : Nat) (f : RowSt → RowSt) : State := { s with rows := tset s.rows r (f (getRow s r)) }

/-- Whether the transmit lanes of a die's row lack the light that R315 asks for: the lasers are off, or two are lost
(R316). -/
def rowDark (s : State) (d : Nat) : Bool := (getRow s (d / 6)).lasersOff || decide (2 ≤ (getRow s (d / 6)).lost)

/-- A link begins to train (R327): a retrain is counted.  A link held DARK, in SERVICE or in a row without light (R316)
does not. -/
def startTrain (s : State) (d : Nat) (retrain : Bool) : State :=
  if !rfb s (linkBlk d) LK_CTRL_ENABLE || lkState s d = 5 || rowDark s d then s
  else
    let s := if retrain then bump s (linkBlk d) LK_CNT_RETRAIN 1 else s
    enterSignal (modLink s d fun l => { l with attempts := 0, incompatible := false }) d retrain

/-- A link goes down with a notice of the link class (R327, R329, R475). -/
def linkDown (s : State) (d code : Nat) : State :=
  raiseNotice (modLink (setLkState s d 4) d fun l => { l with phase := .idle }) d 2 (lmod s d) d 0 6 code

/-- An attempt has failed (R327): the third in a row leaves the link DOWN. -/
def trainFailed (s : State) (d : Nat) : State :=
  let n := (getLink s d).attempts + 1
  let s := modLink s d fun l => { l with attempts := n }
  if 3 ≤ n then linkDown s d 1 else enterSignal s d (getLink s d).retrain

/-- The map that the passing lanes give (R322): lanes 0-5 where all pass, else the five or six that pass; none below
five. -/
def laneMap (pass : BitVec 7) : Option (BitVec 7) :=
  if laneCount pass = 7 then some 0x3F else if 5 ≤ laneCount pass then some pass else none

/-- Flits sent again, byte for byte, oldest first (R320). -/
def resend (s : State) (d : Nat) : State :=
  let fl := (getLink s d).replay
  let s := fl.foldl (fun s f => slotOut s d f.2) s
  bump (bump s (linkBlk d) LK_CNT_REPLAY fl.length) (linkBlk d) LK_CNT_TXFLIT fl.length

/-- The link comes up (R327): with the partner unchanged it resumes from its oldest unacknowledged flit; with another
partner both ends discard their buffers. -/
def linkUp (s : State) (d : Nat) : State :=
  let s := setLkState s d 3
  let l := getLink s d
  let now := regWord s (linkBlk d + 0x18)
  let fresh := l.lastPhys.any fun p => p != now
  let s := modLink s d fun l =>
    if fresh then
      { l with phase := .idle, attempts := 0, lastPhys := some now, replay := [], ackSeq := l.txSeq - 1, replays := 0,
               partialRx := [], rxPkts := [], rxUsed := [], owed := [], txCredit := [], txShared := 7168 }
    else { l with phase := .idle, attempts := 0, lastPhys := some now, replays := 0 }
  linkPump (resend s d) d

/-- TRAINING_PHASE_COMPLETE (R322, R327). -/
def execTrainingPhaseComplete (d : Die) (r : TrainResult) (s : State) : Out :=
  let n := d.val
  let l := getLink s n
  onDie n s <|
    match l.phase with
    | .idle => s
    | .signal =>
      if r.ok then
        modLink (wf s (linkBlk n) LK_STATUS_LOS 0) n fun l =>
          { l with phase := if l.retrain then .laneTest else .equalise }
      else trainFailed s n
    | .equalise => if r.ok then modLink s n fun l => { l with phase := .laneTest } else trainFailed s n
    | .laneTest =>
      if r.ok && (laneMap r.rxPass).isSome && (laneMap r.txPass).isSome then
        modLink s n fun l => { l with phase := .map, rxPass := r.rxPass, txPass := r.txPass }
      else trainFailed s n
    | .map =>
      match laneMap l.rxPass, laneMap l.txPass with
      | some rx, some tx =>
        if r.ok then setLkState (modLink (showLanes s n rx tx) n fun l => { l with phase := .negotiate }) n 2
        else trainFailed s n
      | _, _ => trainFailed s n
    | .negotiate =>
      if !r.ok then trainFailed s n
      else if l.negSent && l.negGot && l.negAcked then linkUp s n
      else s

/-! Negotiation (R328-R331). -/

/-- The running firmware bank. -/
def runningBank (s : State) : Bank := s.secure.banks.getD s.secure.running Bank.none

/-- A NEG message's 240 bytes (R328). -/
def negBytes (s : State) (d : Nat) : List Byte :=
  let b := runningBank s
  [1, BitVec.ofNat 8 (b2n (getLink s d).negGot), b.lvmin, b.lvmax] ++ leBytes 2 3 ++ [s.secure.variant.algrev, s.secure.variant.part]
    ++ wordBytes s.secure.physid
    ++ leBytes 2 (if s.torter.topo = [] then 0x3FF else Config.position % 1024)
    ++ leBytes 2 (lmod s d + 32768 * b2n (noLmod s d)) ++ leBytes 1 d ++ leBytes 1 (d / 6 + 8 * (d % 6)) ++ [0, 0]
    ++ leBytes 4 (rf s (linkBlk d) LK_EPOCH_EPOCH) ++ leBytes 2 b.fwrev.toNat ++ List.replicate 210 0

/-- The entry of the topology map for row `r` of this module's position: partner's position and row, if the row is
connected (R334). -/
def topoPartner (s : State) (r : Nat) : Option (Nat × Nat) :=
  let t := s.torter.topo
  let w := leAt t (64 + 16 * Config.position + 2 * r) 2
  if t ≠ [] && Config.position < leAt t 2 2 && w ≥ 32768 then some (w % 1024, bits w 12 10) else none

/-- Whether the partner differs from what the topology map says, or lies in another column (R331). -/
def miswired (s : State) (d : Nat) (m : NegMsg) : Bool :=
  m.col.toNat != d % 6 || (match topoPartner s (d / 6) with
    | some (p, r) => m.pos.toNat != p || m.row.toNat != r
    | none => false)

/-- NEG (R328-R331): version and features are agreed, and the partner is compared with the map. -/
def execNeg (d : Die) (m : NegMsg) (s : State) : Out :=
  let n := d.val
  let b := linkBlk n
  let k := runningBank s
  let lo := max k.lvmin.toNat m.vmin.toNat
  let v := min k.lvmax.toNat m.vmax.toNat
  onDie n s <|
    if lkState s n ≠ 2 then s
    else if v < lo then linkDown (modLink s n fun l => { l with incompatible := true }) n 2
    else
      let s := wf s b LK_STATUS_VERSION v
      let s := wf (wf s b LK_STATUS_CRIER (b2n (m.feat.getLsbD 0))) b LK_STATUS_RTSPARE (b2n (m.feat.getLsbD 1))
      let s := wf (wf s b LK_PARTNER_POS m.pos.toNat) b LK_PARTNER_ALGREV m.algrev.toNat
      let s := wf (wf s b LK_PARTNER_NOLMOD (b2n m.nolmod)) b LK_PARTNER_LMOD m.lmod.toNat
      let s := wf (wf (wf s b LK_PARTNER_DIE m.die.toNat) b LK_PARTNER_COL m.col.toNat) b LK_PARTNER_ROW m.row.toNat
      let s := setReg s (b + 0x18) m.physid
      let s := wf s b LK_STATUS_MISWIRED (b2n (miswired s n m))
      modLink s n fun l => { l with negGot := true, negAcked := l.negAcked || m.acked }

/-- NEG_RESEND (R328); a NEG that still waits for the window is the interval's. -/
def execNegResend (d : Die) (s : State) : Out :=
  let n := d.val
  onDie n s <|
    if lkState s n ≠ 2 || (getLink s n).ctlq ≠ [] then s
    else modLink (sendControl s n (negBytes s n)) n fun l => { l with negSent := l.negSent || l.negGot }

/-- LOSS_OF_LIGHT (R327). -/
def execLossOfLight (d : Die) (s : State) : Out :=
  let n := d.val
  onDie n s <|
    if 1 ≤ lkState s n && lkState s n ≤ 3 then startTrain (setBit s (linkBlk n) LK_STATUS_LOS) n false else s

/-! Flits and retry (R318-R320, R324). -/

/-- The sender goes back (R320): the third replay in a row without an advance makes the link retrain. -/
def replay (s : State) (d : Nat) : State :=
  let n := (getLink s d).replays + 1
  let s := resend (modLink s d fun l => { l with replays := n }) d
  if 3 ≤ n then startTrain s d true else s

/-- ACKSEQ taken (R320): flits up to it are no longer kept. -/
def takeAck (l : LinkSt) (a : BitVec 12) : LinkSt :=
  match indexOf (fun f : BitVec 12 × List Byte => f.1 == a) l.replay with
  | some i => { l with replay := l.replay.drop (i + 1), ackSeq := a, replays := 0 }
  | none => l

/-- Credits returned by the partner (R318, R324). -/
def takeReturn (l : LinkSt) (v : Nat) (shared : Bool) (k : Nat) : LinkSt :=
  if shared then { l with txShared := l.txShared + k }
  else { l with txCredit := tset l.txCredit v (tget 32 l.txCredit v + k) }

/-- Packets packed back to back, with what is left of the last; a byte that starts no packet starts filler. -/
def parsePackets : Nat → List Byte → List (Nat × TPkt) × List Byte
  | 0, bs => ([], bs)
  | fuel + 1, bs =>
    let opc := bits (leAt bs 0 1) 3 0
    if bs = [] || opc = 0 || 6 < opc then ([], [])
    else if bs.length < 32 then ([], bs)
    else
      let n := 32 + pktDataLen opc (bits (leAt bs 2 2) 8 0)
      if bs.length < n then ([], bs)
      else
        let r := parsePackets fuel (bs.drop n)
        (pktOf bs :: r.1, r.2)

/-- A received packet waits in this end's buffer, in the reserved credits of its channel where they cover it (R324). -/
def bufferPacket (l : LinkSt) (x : Nat × TPkt) : LinkSt :=
  let v := pktChan x.1 x.2
  let k := pktCredits x.1 x.2
  let u := tget 0 l.rxUsed v
  if u + k ≤ 32 then { l with rxUsed := tset l.rxUsed v (u + k), rxPkts := l.rxPkts ++ [(x.1, false, x.2)] }
  else { l with rxPkts := l.rxPkts ++ [(x.1, true, x.2)] }

/-- The payload of a DATA flit (R318, R325): it continues the packet that spans into it, up to PSTART, and starts
others from there. -/
def takePayload (l : LinkSt) (pstart : Nat) (bs : List Byte) : LinkSt :=
  let head := if l.partialRx = [] then ([], []) else parsePackets 1 (l.partialRx ++ bs.take (min pstart 240))
  let tail := if pstart < 240 then parsePackets 16 (bs.drop pstart) else ([], [])
  let rest := if pstart < 240 then tail.2 else if head.1 = [] then head.2 else []
  (head.1 ++ tail.1).foldl bufferPacket { l with partialRx := rest }

/-- A rejected flit (R320): the first of a burst is answered with NAK = 1. -/
def rejectFlit (s : State) (d : Nat) : State :=
  let s := bump s (linkBlk d) LK_CNT_CRCERR 1
  if (getLink s d).nakSent then s
  else modLink (sendFlit s d 0 true 0xFF []) d fun l => { l with nakSent := true }

/-- Fabric cycles in which a ready packet lacked credits are counted as credits arrive: how many have passed is a free
value, at least one (R324, log 66). -/
def countWait (s : State) (d : Nat) : State :=
  if creditShort (getLink s d) then
    let (w, s) := drawFree s
    bump s (linkBlk d) LK_CNT_CREDITWAIT (w.toNat % 2 ^ 32 + 1)
  else s

/-- An accepted flit (R320, R324); the packets of a DATA flit on a miswired link, which carries CONTROL flits only, are not
taken (R331). -/
def acceptFlit (s : State) (d ty : Nat) (f : List Byte) : State :=
  let s := bump (countWait s d) (linkBlk d) LK_CNT_RXFLIT 1
  let miswired := rfb s (linkBlk d) LK_STATUS_MISWIRED
  let w := leAt f 4 2
  let s := modLink s d fun l =>
    let l := takeReturn (takeAck { l with nakSent := false } (BitVec.ofNat 12 (leAt f 2 2))) (w % 32)
      (bits w 5 5 == 1) (bits w 15 6)
    let l := { l with rxSeq := if ty = 0 then l.rxSeq else l.rxSeq + 1, sinceAck := l.sinceAck + 1 }
    if ty = 1 && !miswired then takePayload l (leAt f 6 1) (slice f 12 240) else l
  let s := if bits (leAt f 2 2) 12 12 = 1 then replay s d else s
  let s := if 64 ≤ (getLink s d).sinceAck then sendFlit s d 0 false 0xFF [] else s
  linkPump s d

/-- FLIT_RECEIVE (R319, R320): a flit with `errA` and `errB` byte errors in its codewords, each of which corrects up to
four. -/
def execFlitReceive (d : Die) (flit : List Byte) (errA errB : Nat) (s : State) : Out :=
  let n := d.val
  let decoded := decide (errA ≤ 4) && decide (errB ≤ 4)
  let ty := bits (leAt flit 0 2) 15 12
  let ok := decoded && leAt flit 252 4 == crc32c (slice flit 0 252) && ty ≤ 2
    && leAt flit 0 2 % 4096 == (getLink s n).rxSeq.toNat
  onDie n s <|
    if lkState s n ≠ 2 && lkState s n ≠ 3 then s
    else
      let s := if decoded then bump s (linkBlk n) LK_CNT_FECSYM (errA + errB) else s
      if ok then acceptFlit s n ty flit else rejectFlit s n

/-- ACK_TIMER (R320): an IDLE flit carries the acknowledgement where nothing else has. -/
def execAckTimer (d : Die) (s : State) : Out :=
  let n := d.val
  onDie n s (if lkState s n = 2 || lkState s n = 3 then sendFlit s n 0 false 0xFF [] else s)

/-- REPLAY_TIMEOUT (R320). -/
def execReplayTimeout (d : Die) (s : State) : Out :=
  let n := d.val
  onDie n s (if (lkState s n = 2 || lkState s n = 3) && (getLink s n).replay ≠ [] then replay s n else s)

/-! Lane sparing (R323). -/

/-- A SWAP (2) or SWAPACK (3) message (R328). -/
def swapBytes (ctype lane : Nat) (refuse : Bool) : List Byte :=
  [BitVec.ofNat 8 ctype, BitVec.ofNat 8 (lane % 8 + 8 * b2n refuse)] ++ List.replicate 238 0

/-- Whether a lane fails (R323): it lost light (no count), or its corrected bytes in a 1 ms window exceed
LK_SPARE.THRESH. -/
def laneFails (s : State) (d : Nat) (count : Option (BitVec 32)) : Bool :=
  match count with
  | none => true
  | some k => decide (rf s (linkBlk d) LK_SPARE_THRESH < k.toNat)

/-- LANE_FAIL (R323): the receiving end asks for a swap, or the link retrains; a lane without light shows in LOS. -/
def execLaneFail (d : Die) (f : LaneFault) (s : State) : Out :=
  let n := d.val
  let lane := f.lane
  onDie n s <|
    let s := if f.count.isNone then setBit s (linkBlk n) LK_STATUS_LOS else s
    if lkState s n ≠ 3 || !(rxUse s n).getLsbD lane.val || !laneFails s n f.count then s
    else if rfb s (linkBlk n) LK_STATUS_RTSPARE then
      modLink (sendControl s n (swapBytes 2 lane.val false)) n fun l => { l with swapRx := some (BitVec.ofNat 3 lane.val) }
    else startTrain s n true

/-- The transmit map with a failing lane replaced by the spare (R323); none where no spare is free: five lanes run, or
the seventh did not pass at training. -/
def spareMap (use pass : BitVec 7) (lane : Nat) : Option (BitVec 7) :=
  if laneCount use = 6 && use.getLsbD lane then
    ((List.range 7).find? fun k => !use.getLsbD k && pass.getLsbD k).map fun k =>
      (use &&& ~~~ (1#7 <<< lane)) ||| (1#7 <<< k)
  else none

/-- SWAP (R323): the transmitting end deals by the new map from its next alignment block, or refuses and the link retrains;
during training it is discarded. -/
def execSwap (d : Die) (lane : BitVec 3) (s : State) : Out :=
  let n := d.val
  onDie n s <|
    if lkState s n ≠ 3 || !rfb s (linkBlk n) LK_STATUS_RTSPARE then s
    else match spareMap ((getLink s n).nextTx.getD (txUse s n)) (getLink s n).txPass lane.toNat with
      | some m =>
        let s := sendControl s n (swapBytes 3 lane.toNat false)
        modLink s n fun l => { l with nextTx := some m, txPass := l.txPass &&& ~~~ (1#7 <<< lane.toNat) }
      | none => startTrain (sendControl s n (swapBytes 3 lane.toNat true)) n true

/-- SWAPACK (R323). -/
def execSwapack (d : Die) (lane : BitVec 3) (refuse : Bool) (s : State) : Out :=
  let n := d.val
  onDie n s <|
    if lkState s n ≠ 3 || (getLink s n).swapRx ≠ some lane then s
    else
      let s := modLink s n fun l => { l with swapRx := none }
      if refuse then startTrain s n true else s

/-- ALIGNMENT_BLOCK (R319, R323): the receiver collects by the map that the block carries. -/
def execAlignmentBlock (d : Die) (map : BitVec 7) (s : State) : Out :=
  let n := d.val
  onDie n s <|
    if (lkState s n = 2 || lkState s n = 3) && 5 ≤ laneCount map && laneCount map ≤ 6 then showLanes s n map (txUse s n)
    else s

/-! LK_CTRL (R344). -/

/-- LK_CTRL.CLRCNT. -/
def lkClear (s : State) (d : Nat) : State := clearRegs s (linkBlk d) (offsets 0x40 0x80)

/-- LK_CTRL.ENABLE: 0 holds the link DARK; setting it lets the link train. -/
def lkEnable (s : State) (d : Nat) (b : Bool) : State :=
  let old := rfb s (linkBlk d) LK_CTRL_ENABLE
  let s := wf s (linkBlk d) LK_CTRL_ENABLE (b2n b)
  if !b then
    (if lkState s d = 5 then s else modLink (setLkState s d 0) d fun l => { l with phase := .idle })
  else if old then s
  else startTrain s d false

/-- A write of LK_CTRL. -/
def lkCtrlWrite (s : State) (d : Nat) (v : Word) : State :=
  let s := if fget v LK_CTRL_CLRCNT = 1 then lkClear s d else s
  let s := lkEnable s d (fget v LK_CTRL_ENABLE = 1)
  if fget v LK_CTRL_RETRAIN = 1 then startTrain s d true else s

/-- A write of LK_CTRL that sets one field: the die, the field and its value, and the effect. -/
def onLink (d : Die) (f : Fld) (v : Nat) (s t : State) : Out :=
  let a := linkBlk d.val + 8
  onUnit d.val a (fset (regWord s a) f v) s t

/-- LK_CLRCNT. -/
def execLkClrcnt (d : Die) (s : State) : Out := onLink d LK_CTRL_CLRCNT 1 s (lkClear s d.val)

/-- LK_RETRAIN (R327). -/
def execLkRetrain (d : Die) (s : State) : Out := onLink d LK_CTRL_RETRAIN 1 s (startTrain s d.val true)

/-- LK_ENABLE. -/
def execLkEnable (d : Die) (b : Bool) (s : State) : Out := onLink d LK_CTRL_ENABLE (b2n b) s (lkEnable s d.val b)

/-! Laser cartridges (R316, R317). -/

/-- The six dies of a row. -/
def rowDies (r : Nat) : List Nat := (List.range 6).map fun x => 6 * r + x

/-- The links of a row fail for want of light (R316). -/
def rowFails (s : State) (r : Nat) : State :=
  (rowDies r).foldl (fun s d =>
    if lkState s d = 5 || lkState s d = 0 then s
    else modLink (setLkState s d 4) d fun l => { l with phase := .idle }) s

/-- LASER_FAIL (R316): the first raises the bias of the others, the second fails the row's links. -/
def execLaserFail (row : Fin 6) (s : State) : Out :=
  let r := row.val
  let n := (getRow s r).lost + 1
  onRow r s <|
    if 4 < n then s
    else
      let s := modRow s r fun x => { x with lost := n, raised := true }
      if n = 1 then raiseNotice s (6 * r) 7 (lmod s 0) 0 r 7 1
      else if n = 2 then rowFails (raiseNotice s (6 * r) 7 (lmod s 0) 0 r 7 2) r
      else s

/-- LATCH_OPEN (R316): every laser of the cartridge turns off, and the row's links fail with their light. -/
def execLatchOpen (row : Fin 6) (s : State) : Out :=
  onRow row.val s (rowFails (modRow s row.val fun x => { x with latchOpen := true, lasersOff := true }) row.val)

/-- LATCH_CLOSE (R317): a whole cartridge stands in the row. -/
def execLatchClose (row : Fin 6) (s : State) : Out :=
  onRow row.val s (modRow s row.val fun x =>
    if x.latchOpen then
      { x with
        latchOpen := false, lost := 0, raised := false, exchanged := x.exchanged + 1
        identity := Config.cartridge row.val (x.exchanged + 1) }
    else x)

end Sys2Proof.Machine
end

