-- ==== Sys2Proof/Machine/RegWrites.lean ====
section
/-! DEFINITION. A write of any register of the register region (R10, R11, R177), with what it triggers, and a write at any
home by a unit that the stall fence does not check (R190, R194). -/

namespace Sys2Proof.Machine

/-- HBM_SPARE written with START (R197, R201): ignored while a copy runs or once the spare is used. -/
def hbmSpareStart (s : State) (d k chan : Nat) : State :=
  let b := hbmBlk d k
  let s := wf s b HBM_SPARE_CHAN chan
  if rfb s b HBM_STATUS_SPARE_BUSY || rfb s b HBM_STATUS_SPARE_USED then s
  else
    setHbm (wf (setBit s b HBM_STATUS_SPARE_BUSY) b HBM_SPAREPOS_GRANULES 0) d k
      { getHbm s d k with copying := some (BitVec.ofNat 5 chan) }

/-- A write of a DMA channel's CH_CTRL (R217, R218, R222). -/
def chCtrlWrite (s : State) (d c k : Nat) (v : Word) : State :=
  let s := if fget v CH_CTRL_CLRCNT = 1 then chClear s d c k else s
  let s := if fget v CH_CTRL_ABORT = 1 then abortWrite s d c k else s
  let s := if fget v CH_CTRL_CLEAR = 1 then clearWrite s d c k else s
  pauseWrite s d c k (fget v CH_CTRL_PAUSE = 1)

/-- A write of a register by its address. -/
def regionRegWrite (s : State) (a : Nat) (v : Word) : State :=
  let a := a / 8 * 8
  match locate a with
  | none => s
  | some p =>
    match p.blk with
    | .core | .me | .ve | .sfe | .cl => slotWrite s a v
    | .die => if p.off = 0x88 then ceNotice (accessWrite s a v) p.die else accessWrite s a v
    | .hbm =>
      if p.off = 8 then
        (if fget v HBM_SPARE_START = 1 then hbmSpareStart s p.die p.i (fget v HBM_SPARE_CHAN) else accessWrite s a v)
      else accessWrite s a v
    | .link => if p.off = 8 then lkCtrlWrite s p.die v else accessWrite s a v
    | .red => if p.off = 8 then (if v.getLsbD 0 then redClear s p.die else s) else accessWrite s a v
    | .sty => if p.off = 8 then (if v.getLsbD 0 then styClear s p.die else s) else accessWrite s a v
    | .plu =>
      if p.off = 8 then (if v.getLsbD 0 then pluClear s p.die else s)
      else if hasPlu s p.die then accessWrite s a v else s
    | .gc =>
      if p.off = 8 then (if v.getLsbD 0 then gcClear s p.die p.i else s)
      else if hasGc s then accessWrite s a v else s
    | .dma =>
      if p.off = 8 then
        pauseallWrite (if fget v DMA_CTRL_CLRCNT = 1 then dmaClear s p.die p.i else s) p.die p.i
          (fget v DMA_CTRL_PAUSEALL = 1)
      else accessWrite s a v
    | .ch =>
      if p.off = 0 then chCtrlWrite s p.die p.i p.j v
      else if p.off = 0x10 then chDqWrite s p.die p.i p.j v
      else accessWrite s a v
    | .mesh => accessWrite s a v
    | .pwr | .bar0 | .queue => s

/-- Whole registers written from bytes. -/
def regionRegWrites (s : State) (a : Nat) (bs : List Byte) : State :=
  (List.range (ceilDiv bs.length 8)).foldl (fun s i => regionRegWrite s (a + 8 * i) (leWord (slice bs (8 * i) 8))) s

/-- A write performed at any home of die `d`. -/
def anyWrite (s : State) (d l : Nat) (bs : List Byte) : State :=
  match homeOf l with
  | some (.reg _) => regionRegWrites s (dieAddr d + l) bs
  | _ => poke s d l bs

/-- HBM_SPARE_START (R197). -/
def execHbmSpareStart (d : Die) (k : Fin 4) (chan : BitVec 5) (s : State) : Out :=
  onUnit d.val (hbmBlk d.val k.val + 8) (fset (fset 0 HBM_SPARE_CHAN chan.toNat) HBM_SPARE_START 1) s
    (hbmSpareStart s d.val k.val chan.toNat)

end Sys2Proof.Machine
end

