-- ==== Sys2Proof/Machine/Fabric.lean ====
section
/-! DEFINITION. Requests at their homes (R189-R195), patrol scrubbing (R196), sparing (R197) and mesh edges (R185,
R186). -/

namespace Sys2Proof.Machine

/-- Cluster whose router checks a request, and the core it comes from (R193); none for sources that the fence does not
check (R194).  DESIGN CHOICE (log 124): a request that is given as the prefix lookup unit's own, without the core whose
request it serves, is checked and counted at the router of cluster 0; PLU_LOOKUP uses the requester's cluster. -/
def srcRouter (r : ReqSrc) : Option (Nat × Option Nat) :=
  match r with
  | .core n => some (n.val / 16, some n.val)
  | .dma c _ => some (c.val, none)
  | .compressor c => some (c.val, none)
  | .plu => some (0, none)
  | .dieController | .link | .cxl => none

/-- The address check of a request that the fence does not check, at its home module (R175, R194). -/
def plainTarget (s : State) (a : Word) (len : Nat) : Option (Nat × Nat) :=
  if dieOk s (addrDie a) && (firstBad (addrLocal a) len).isNone then some (addrDie a, addrLocal a) else none

/-- Where a request that the fence does not check goes from die `d` (R174, R175, R194, R335, R477): the module field
decides, and while the module holds no logical number none is its own. -/
def freeTarget (s : State) (d : Nat) (a : Word) (len : Nat) : Target :=
  match plainTarget s a len with
  | none => .unmapped a
  | some (t, l) =>
    if isOwn s (addrMod a) then .here t l
    else if (routeRow s d (addrMod a)).isSome then .away (addrMod a) t l
    else .unmapped a

/-- Unit number of a MEMORY_REQUEST in SUNIT (log 23). -/
def unitReq : Nat := 0x5000

/-- A request performed at its home on the module: a read delivers its bytes or poison; a route over a down edge returns
poison (R186), and so does a write to a failed stack (R181); any other write is performed. -/
def performNow (s : State) (r : MemReq) (t l : Nat) : State :=
  let from' := r.die.val
  let c := (srcRouter r.src).map (·.1)
  if routeDown s from' t then emit s (.read [] true)
  else if r.write then
    let s := anyWrite (carry s from' c t l r.data.length true) t l r.data
    if (deadIn s t l r.data.length).isSome then emit s (.read [] true) else s
  else match homeRead (carry s from' c t l r.len false) t l r.len r.ecc with
    | (s, .poison _) => emit s (.read [] true)
    | (s, .bytes bs) => emit s (.read bs false)

/-- The wake event that a request is as it arrives for a home on die `t` (R420, R422): WINDOW for the port's, LINK at the
die of the link it came by, MCTL for the die controller's to a register of a gated unit, else MESH. -/
def requestWake (s : State) (r : MemReq) (t l : Nat) : State :=
  match r.src with
  | .cxl => wakeAll s t 3
  | .link => meshWake (wakeDie s r.die.val 2) r.die.val t
  | .dieController =>
    if (homeOf l matches some (.reg _)) && unitGated s (dieAddr t + l) then wakeDie s t 0 else meshWake s r.die.val t
  | _ => meshWake s r.die.val t

/-- Whether a request waits in the mesh node of die `t` (R420): one of the die's own units does not go through it. -/
def requestWaits (s : State) (r : MemReq) (t l : Nat) : Bool :=
  waitsAt s t && (r.die.val != t || r.src == .cxl || r.src == .link
    || (r.src == .dieController && (homeOf l matches some (.reg _)) && unitGated s (dieAddr t + l)))

/-- A request arrives for a home on the module: it is performed, or waits for the exit of the home's die (R420). -/
def performHere (s : State) (r : MemReq) (t l : Nat) : State :=
  let s := requestWake s r t l
  if requestWaits s r t l then holdRequest s t (.request r) else performNow s r t l

/-- A request for another module sent towards it (R174, R326, R335); its data leave through the router of its cluster
(R200). -/
def performAway (s : State) (r : MemReq) : State :=
  let d := r.die.val
  if r.write then
    let s := match srcRouter r.src with
      | some (c, _) => countOut s d c r.data.length
      | none => s
    sendWrite s d unitReq r.addr r.data
  else sendRead s d unitReq r.addr r.len

/-- MEMORY_REQUEST (R174, R189, R190, R195): a request of a program goes out only where the router lets it through (R193,
R194); one whose module field names this module is performed at its home, any other is sent over the links. -/
def execMemoryRequest (r : MemReq) (s : State) : Out :=
  let d := r.die.val
  let len := if r.write then r.data.length else r.len
  onDie d s <|
    match srcRouter r.src with
    | some (c, core) =>
      match checkTarget s d c core r.write r.addr len with
      | .fenced => countFence s d c
      | .here t l => performHere s r t l
      | .away _ _ _ => performAway s r
      | .unmapped _ => s
    | none =>
      match freeTarget s d r.addr len with
      | .here t l => performHere s r t l
      | .away _ _ _ => performAway s r
      | _ => s

/-- SCRUB_READ (R196): the protected unit at an address is read; SCRUB_POS moves past an HBM burst.  In power-down and
below the stacks are not scrubbed (R418). -/
def execScrubRead (addr : Word) (ecc : Ecc) (s : State) : Out :=
  let d := addrDie addr
  let l := addrLocal addr
  onDie d s <|
    if !rfb s (dieBlk d) SCRUB_CTRL_EN || (getPow s d).hbm != .running then s
    else match homeOf l with
      | some (.reg _) | none => s
      | some h =>
        let s := (memRead s d (unitOf l) (unitSize l) ecc).1
        if h = .hbm then wf s (dieBlk d) SCRUB_POS_ADDR ((unitOf l + 64) % 0x4800000000) else s

/-- SPARE_COPY_DONE (R197): the spare takes the channel's addresses. -/
def execSpareCopyDone (d : Die) (k : Fin 4) (s : State) : Out :=
  let b := hbmBlk d.val k.val
  let h := getHbm s d.val k.val
  onDie d.val s <|
    match h.copying with
    | none => s
    | some ch =>
      let s := setHbm s d.val k.val { h with copying := none, spareChan := some ch }
      let s := wf (setBit (wf s b HBM_STATUS_SPARE_BUSY 0) b HBM_STATUS_SPARE_USED) b HBM_SPAREPOS_GRANULES 9437184
      { s with secure := { s.secure with spareUsed := tset s.secure.spareUsed (d.val * 4 + k.val) (some ch) } }

/-- ROW_REPAIR (R197, R445): the repair is recorded in the repair log; the bank is held until it is made. -/
def execRowRepair (d : Die) (k : Fin 4) (row : Nat) (s : State) : Out :=
  let x := d.val * 4 + k.val
  let n := s.secure.repairLog.length
  onDie d.val s <|
    let s := setHbm s d.val k.val { getHbm s d.val k.val with repairing := some row }
    let s := bump s (hbmBlk d.val k.val) HBM_CNT_ROWS 1
    { s with secure := { s.secure with
        repairLog := s.secure.repairLog ++ [⟨n, x, row, slice (Config.repairRecord n x row) 0 64⟩] } }

/-- ROW_REPAIR_DONE (R197). -/
def execRowRepairDone (d : Die) (k : Fin 4) (s : State) : Out :=
  onDie d.val s (setHbm s d.val k.val { getHbm s d.val k.val with repairing := none })

/-- Whether a die has an edge in a direction (R183, R202). -/
def edgePresent (s : State) (d dir : Nat) : Bool :=
  if dir = 0 then d / 6 != 0 else if dir = 1 then d % 6 != 5 else if dir = 2 then d / 6 + 1 != nrow s else d % 6 != 0

/-- MESH_SLIP (R185): SLIP is set, counted, and the edge recentres. -/
def execMeshSlip (d : Die) (dir : Dir) (s : State) : Out :=
  let n := d.val
  let k := dir.val
  onDie n s <|
    if !edgePresent s n k || edgeDown s n k then s
    else
      setEdge (setBit (bump s (meshBlk n) MESH_CNT_RETRAIN 1) (meshBlk n) ⟨0, k, 1⟩) n k
        { getEdge s n k with recentring := true }

/-- MESH_FLIT_CRC_ERROR (R185): the flit is sent again, and counted. -/
def execMeshFlitCrcError (d : Die) (dir : Dir) (s : State) : Out :=
  onDie d.val s (if edgePresent s d.val dir.val then bump s (meshBlk d.val) MESH_CNT_RETRAIN 1 else s)

/-- MESH_RECENTRE_COMPLETE (R185, R186): the third failure in succession takes the edge down with a notice of the link
class (R475); it is the uncorrectable error of class 0x0A (R195, R198). -/
def execMeshRecentreComplete (d : Die) (dir : Dir) (ok : Bool) (s : State) : Out :=
  let n := d.val
  let k := dir.val
  let e := getEdge s n k
  onDie n s <|
    if !e.recentring then s
    else if ok then setEdge s n k ⟨false, 0⟩
    else if e.fails + 1 < 3 then setEdge s n k ⟨true, e.fails + 1⟩
    else
      let s := raiseNotice (setBit (setEdge s n k ⟨false, 3⟩) (meshBlk n) ⟨0, 4 + k, 1⟩) n 6 (lmod s n) n k 6 3
      recordUnplaced s n 0x0A k 6 k

end Sys2Proof.Machine
end

