-- ==== Sys2Proof/Machine/Transport.lean ====
section
/-! DEFINITION. Transport packets that reach a die's router (R324-R326, R335, R339, R477) and the crier (R340-R342). -/

namespace Sys2Proof.Machine

/-- A packet leaves the link's receive buffer as it is handled: its credits go back to the partner (R324). -/
def takePacket (s : State) (d opc : Nat) (p : TPkt) : State :=
  let l := getLink s d
  match indexOf (fun x : Nat × Bool × TPkt => x.1 == opc && x.2.2 == p) l.rxPkts with
  | none => s
  | some i =>
    let sh := (l.rxPkts.getD i (0, false, p)).2.1
    let v := pktChan opc p
    let k := pktCredits opc p
    modLink s d fun l =>
      { l with
        rxPkts := l.rxPkts.eraseIdx i
        rxUsed := if sh then l.rxUsed else tset l.rxUsed v (tget 0 l.rxUsed v - k)
        owed := l.owed ++ [(v, sh, k)] }

/-- A packet discarded (R335, R339). -/
def stale (s : State) (d : Nat) : State := bump s (linkBlk d) LK_CNT_STALE 1

/-- Whether a packet is of another epoch than the receiving die's (R339). -/
def otherEpoch (s : State) (d : Nat) (p : TPkt) : Bool := p.epoch.toNat != rf s (linkBlk d) LK_EPOCH_EPOCH % 256

/-- A packet for another module goes on by the route table (R335): a 17th hop is not taken, and a packet without a route
goes no further. -/
def routeOn (s : State) (d m opc : Nat) (p : TPkt) : State :=
  if p.hop = 15 || (routeRow s d m).isNone then stale s d
  else sendPacket s d m opc { p with hop := p.hop + 1 }

/-- A response to a request, sent from the home die (R325, R326). -/
def respond (s : State) (t opc : Nat) (p : TPkt) (status : Nat) (data : List Byte) : State :=
  sendPacket s t p.smod.toNat opc (answerTo s t p status data)

/-- A packet for this module on a die's link is the wake event LINK there (R422). -/
def linkWake (s : State) (d m : Nat) : State := if isOwn s m then wakeDie s d 2 else s

/-- A request that has come by the link of die `d` arrives for a home on die `t`: it is performed, or waits there for the
exit (R420). -/
def arrives (s : State) (d t opc : Nat) (p : TPkt) (now : State → State) : State :=
  let s := meshWake s d t
  if waitsAt s t then holdRequest s t (.packet d opc p) else now s

/-- A READ performed at its home (R326). -/
def readHome (s : State) (d : Nat) (p : TPkt) : State :=
  let n := p.len.toNat
  match plainTarget s p.addr n with
  | none => respond s d 3 p 2 []
  | some (t, l) =>
    if routeDown s d t then respond s d 3 p 1 []
    else arrives s d t 1 p fun s => match homeRead (carry s d none t l n false) t l n .clean with
      | (s, .poison _) => respond s t 3 p 1 []
      | (s, .bytes bs) => respond s t 3 p 0 bs

/-- A WRITE performed at its home (R190, R326). -/
def writeHome (s : State) (d : Nat) (p : TPkt) : State :=
  match plainTarget s p.addr p.data.length with
  | none => respond s d 4 p 2 []
  | some (t, l) =>
    if routeDown s d t then respond s d 4 p 1 []
    else arrives s d t 2 p fun s =>
      let s := anyWrite (carry s d none t l p.data.length true) t l p.data
      respond s t 4 p (if (deadIn s t l p.data.length).isSome then 1 else 0) []

/-- READ (R326, R335, R339). -/
def execRead (d : Die) (p : TPkt) (s : State) : Out :=
  let n := d.val
  onDie n s <|
    let s := linkWake (takePacket s n 1 p) n (addrMod p.addr)
    if otherEpoch s n p then stale s n
    else if isOwn s (addrMod p.addr) then readHome s n p
    else routeOn s n (addrMod p.addr) 1 p

/-- WRITE (R326, R335, R339). -/
def execWrite (d : Die) (p : TPkt) (s : State) : Out :=
  let n := d.val
  onDie n s <|
    let s := linkWake (takePacket s n 2 p) n (addrMod p.addr)
    if otherEpoch s n p then stale s n
    else if isOwn s (addrMod p.addr) then writeHome s n p
    else routeOn s n (addrMod p.addr) 2 p

/-- A response that reached its module at die `d` goes over the mesh to its source (R326, R335): a core that has been reset
takes it as the end of a request sent before (R96); the answer to a MEMORY_REQUEST is delivered; any other unit finds it
among the answers.  Over a down edge it does not arrive (log 125). -/
def deliver (s : State) (d opc : Nat) (p : TPkt) : State :=
  let t := p.sdie.toNat
  let u := p.sunit.toNat
  let n := u % 256
  let tag := p.tag.toNat
  if !dieOk s t || routeDown s d t then s
  else
    let s := countHops s d t p.data.length
    if u < 512 && (getCore s t n).orphans.contains tag then coreAck s t n tag
    else if u = unitReq then (if opc = 3 || p.status.toNat ≠ 0 then emit s (.read p.data (p.status.toNat != 0)) else s)
    else { s with arrived := s.arrived ++ [(t, u, tag, p.status.toNat, p.data)] }

/-- RDATA (R326, R335, R339). -/
def execRdata (d : Die) (p : TPkt) (s : State) : Out :=
  let n := d.val
  onDie n s <|
    let s := linkWake (takePacket s n 3 p) n p.smod.toNat
    if otherEpoch s n p then stale s n
    else if isOwn s p.smod.toNat then deliver s n 3 p
    else routeOn s n p.smod.toNat 3 p

/-- WACK (R326, R335, R339). -/
def execWack (d : Die) (p : TPkt) (s : State) : Out :=
  let n := d.val
  onDie n s <|
    let s := linkWake (takePacket s n 4 p) n p.smod.toNat
    if otherEpoch s n p then stale s n
    else if isOwn s p.smod.toNat then deliver s n 4 p
    else routeOn s n p.smod.toNat 4 p

/-! The crier (R341). -/

/-- Entries of a link's recently-seen table. -/
def crierCap : Nat := 256

/-- A NOTICE or COUNT goes on towards collector `m`: to this module's controller where it is the collector or no route
leads there, else out by the route tables. -/
def passOn (s : State) (d m opc : Nat) (p : TPkt) (e : CrierEnt) (k : Nat) : State :=
  if isOwn s m || (routeRow s d m).isNone then takeNotice s d e k
  else routeOn s d m opc p

/-- A COUNT that a link makes from an entry's pending copies. -/
def sendCount (s : State) (d : Nat) (e : CrierEnt) : State :=
  if e.pending = 0 then s
  else match collector s with
    | some m =>
      if isOwn s m || (routeRow s d m).isNone then takeNotice s d e e.pending else sendNotice s d m 6 e e.pending
    | none => takeNotice s d e e.pending

/-- A FID entered, newest last; a full table first loses its oldest entry (R341). -/
def crierEnter (s : State) (d : Nat) (e : CrierEnt) : State :=
  let l := getLink s d
  match l.crier with
  | old :: rest =>
    if crierCap ≤ l.crier.length then modLink (sendCount s d old) d fun l => { l with crier := rest ++ [e] }
    else modLink s d fun l => { l with crier := l.crier ++ [e] }
  | [] => modLink s d fun l => { l with crier := [e] }

/-- Copies added to a FID's entry. -/
def crierAdd (s : State) (d : Nat) (fid : Word) (k : Nat) : State :=
  modLink s d fun l => { l with crier := l.crier.map fun x => if x.fid = fid then { x with pending := x.pending + k } else x }

/-- NOTICE (R339, R341). -/
def execNotice (d : Die) (p : TPkt) (s : State) : Out :=
  let n := d.val
  let e := (noticeOf p.data).1
  onDie n s <|
    let s := linkWake (takePacket s n 5 p) n (addrMod p.addr)
    if !rfb s (linkBlk n) LK_STATUS_CRIER then passOn s n (addrMod p.addr) 5 p e 1
    else if (getLink s n).crier.any fun x => x.fid == e.fid then
      bump (crierAdd s n e.fid 1) (linkBlk n) LK_CNT_CRIERDUP 1
    else passOn (crierEnter s n { e with pending := 0 }) n (addrMod p.addr) 5 p e 1

/-- COUNT (R341). -/
def execCount (d : Die) (p : TPkt) (s : State) : Out :=
  let n := d.val
  let (e, k) := noticeOf p.data
  onDie n s <|
    let s := linkWake (takePacket s n 6 p) n (addrMod p.addr)
    if !rfb s (linkBlk n) LK_STATUS_CRIER then passOn s n (addrMod p.addr) 6 p e k
    else
      let s := if (getLink s n).crier.any fun x => x.fid == e.fid then s else crierEnter s n { e with pending := 0 }
      crierAdd s n e.fid k

/-- What the module controller's own table has pending goes to the collector (R342). -/
def flushModule (s : State) (d : Nat) : State :=
  let s := s.torter.notices.foldl (fun s e => sendModCount s d e) s
  modTorter s fun t => { t with notices := t.notices.map fun e => { e with pending := 0, quiet := e.quiet + 1 } }

/-- An entry of the module controller's table expires, its pending copies going out first (R341, R342). -/
def expireModule (s : State) (d : Nat) (fid : Word) : State :=
  match s.torter.notices.find? fun x => x.fid == fid with
  | none => s
  | some e => modTorter (sendModCount s d e) fun t => { t with notices := t.notices.filter fun x => x.fid != fid }

/-- CRIER_FLUSH (R341, R342): die 0's interval also serves the module controller's table (log 31). -/
def execCrierFlush (d : Die) (s : State) : Out :=
  let n := d.val
  onDie n s <|
    let l := getLink s n
    let s := l.crier.foldl (fun s e => sendCount s n e) s
    let s := modLink s n fun l => { l with crier := l.crier.map fun e => { e with pending := 0 } }
    if n = 0 then flushModule s 0 else s

/-- An entry of a link's table expires, its pending copies going out first (R341). -/
def expireLink (s : State) (d : Nat) (fid : Word) : State :=
  match (getLink s d).crier.find? fun x => x.fid == fid with
  | none => s
  | some e => modLink (sendCount s d e) d fun l => { l with crier := l.crier.filter fun x => x.fid != fid }

/-- CRIER_EXPIRY (R341, R342): HOLD has passed since the FID was entered in the table of the die's link; at die 0, where
the link holds no such entry, in the module controller's table (log 31). -/
def execCrierExpiry (d : Die) (fid : Word) (s : State) : Out :=
  let n := d.val
  onDie n s <|
    if n = 0 && !(getLink s 0).crier.any (fun x => x.fid == fid) then expireModule s 0 fid else expireLink s n fid

end Sys2Proof.Machine
end

