-- ==== Sys2Proof/Machine/Boot.lean ====
section
/-! DEFINITION. Signed objects (R438, R439), measurements (R446, R447), module reset (R435), the boot stages (R441-R445,
R454) and the supply, clock and reset inputs (R460-R464). -/

namespace Sys2Proof.Machine

/-! Signed objects. -/

/-- Bytes `lo` to `hi` of a list are all 0. -/
def zeroBytes (bs : List Byte) (lo hi : Nat) : Bool := (slice bs lo (hi + 1 - lo)).all (· == 0)

/-- The characters of the context string of R439. -/
def ctxName : List Byte :=
  [0x48, 0x41, 0x4C, 0x42, 0x55, 0x56, 0x4F, 0x2D, 0x4C, 0x59, 0x49, 0x4C, 0x41, 0x4D, 0x55, 0x53]

/-- Length of a signed object by its header (R438). -/
def objectLen (b : List Byte) : Nat := 4096 + leAt b 32 4

/-- The body of a signed object. -/
def objectBody (b : List Byte) : List Byte := slice b 4096 (leAt b 32 4)

/-- The key that a type requires, and whether its BIND must be nonzero (R439). -/
def objectKey (ty : Nat) : Nat := if ty = 1 then 1 else 2

/-- Whether a signer certificate verifies to the root in the mask ROM (R439). -/
def signerOk (cert : List Byte) : Bool := Config.certRooted cert Config.romRoot

/-- Whether an object of a type is valid on the module, with the signer certificates it holds and its PHYSID (R438,
R439): the verifying key is that of the certificate named by KEYID. -/
def objectValid (x : Secure) (ty : Nat) (b : List Byte) : Bool :=
  let bind := leWord (slice b 24 8)
  let cert := x.signers.getD (objectKey ty - 1) []
  leAt b 0 4 == 0x4C585342 && leAt b 4 1 == ty && leAt b 5 1 == 1
    && zeroBytes b 6 7 && zeroBytes b 18 23 && zeroBytes b 37 63 && zeroBytes b 3437 4095
    && (bind == x.physid || (bind == 0 && !(decide (2 ≤ ty) && decide (ty ≤ 4))))
    && leAt b 36 1 == objectKey ty
    && slice b 64 64 == leBytes 64 (shake256 (objectBody b)).toNat
    && signerOk cert
    && Config.mlDsaVerify (Config.certKey cert) (ctxName ++ [BitVec.ofNat 8 ty]) (slice b 0 128) (slice b 128 3309)

/-- The variant that the body of a descriptor gives (R443). -/
def Variant.ofBody (b : List Byte) : Variant :=
  { part := BitVec.ofNat 8 (leAt b 0 1), ndie := leAt b 1 1, gcmp := (bits (leAt b 2 1) 0 0 == 1)
    plu := (bits (leAt b 2 1) 1 1 == 1), algrev := BitVec.ofNat 8 (leAt b 3 1), pmax := BitVec.ofNat 32 (leAt b 4 4)
    serial := leWord (slice b 8 8) }

/-- Whether a cartridge's identity record is valid and of a part that the module accepts (R454). -/
def cartridgeOk (s : State) (r : Nat) : Bool :=
  let b := (getRow s r).identity
  objectValid s.secure 5 b && leAt b 32 4 == 32 && Config.cartridgePart (leAt b 4104 1)

/-! Measurements. -/

/-- Register `i` extended by the digest of the bytes measured, with a tag (R446, R447). -/
def extendMr (s : State) (i tag : Nat) (bs : List Byte) : State :=
  let x := s.secure
  let dg := shake256 bs
  let mr := x.mrs.getD i 0
  let new := shake256 (leBytes 64 mr.toNat ++ [BitVec.ofNat 8 tag] ++ leBytes 64 dg.toNat)
  let n := x.extCount + 1
  { s with secure := { x with
      mrs := x.mrs.set i new
      extCount := n
      log := if x.log.length < 4096 then x.log ++ [(i, tag, n, dg)] else x.log
      logOverflow := x.logOverflow || decide (4096 ≤ x.log.length) } }

/-- The measurement log as it reads (R447): a 16-byte header and 80 bytes for each entry. -/
def logBytes (s : State) : List Byte :=
  let x := s.secure
  leBytes 1 (b2n x.logOverflow) ++ List.replicate 15 0 ++
    (x.log.map fun e => leBytes 1 e.1 ++ leBytes 1 e.2.1 ++ List.replicate 6 0 ++ leBytes 8 e.2.2.1
      ++ leBytes 64 e.2.2.2.toNat).flatten

/-! What a die loses. -/

/-- Entries of a table whose key, divided by `k`, is not `d`. -/
def dropDie {α : Type} (k d : Nat) (t : Tab α) : Tab α := t.filter fun p => p.1 / k != d

/-- A die loses everything but its power block and its power state (R419: Standby). -/
def dieLost (s : State) (d : Nat) : State :=
  let p := (getDie s d).pow
  { s with
    mem := s.mem.filter fun c => c.1 / 2 ^ 49 != d
    poison := s.poison.filter fun u => u / 2 ^ 49 != d
    upsets := s.upsets.filter fun u => u.1 / 2 ^ 49 != d
    regs := s.regs.filter fun r => 2 ^ 56 ≤ r.1 || r.1 / 2 ^ 49 != d
    cores := dropDie 256 d s.cores
    chans := dropDie 512 d s.chans
    dmaPtr := dropDie 64 d s.dmaPtr
    gcs := dropDie 16 d s.gcs
    plus := dropDie 1 d s.plus
    reds := dropDie 1 d s.reds
    stys := dropDie 1 d s.stys
    edges := dropDie 4 d s.edges
    hbms := dropDie 4 d s.hbms
    links := dropDie 1 d s.links
    dies := tset (dropDie 1 d s.dies) d { DieSt.reset with pow := p }
    arrived := s.arrived.filter fun a => a.1 != d
    asked := s.asked.filter fun a => a.die != d }

/-- Module reset (R435, R382): what boot flash, the authenticated flash, the straps and the cartridges hold stays; every
register takes its Reset value and memory is lost; boot starts again at B1. -/
def moduleReset (s : State) (cause : BitVec 2) : State :=
  { State.reset with
    pending := s.pending
    fresh := s.fresh
    outbox := s.outbox
    rows := s.rows.map fun p => (p.1, { p.2 with lasersOff := true, service := false })
    torter := { Torter.reset with strap := s.torter.strap }
    secure := { s.secure with
      degraded := [], deadDies := [], badStacks := [], noLink := [], stage := 0, recovery := false
      mrs := [0, 0, 0, 0, 0, 0], extCount := 0, log := [], logOverflow := false, resetCause := cause
      spdmVersion := none, spdmAlgs := ⟨false, false, false, false⟩, sessions := [], nextSession := 0, ideKeys := [] }
    supply := { Supply.reset with
      inputOk := s.supply.inputOk, enabled := s.supply.enabled, refclk := s.supply.refclk
      resetLow := s.supply.resetLow, powerGood := s.supply.powerGood, rails := s.supply.rails
      waitRange := s.supply.waitRange } }

/-! Boot. -/

/-- The records of the repair log that pass their check (R445). -/
def goodRepairs (s : State) : List RepairRec := s.secure.repairLog.filter fun r => Config.kmacOk r.bytes

/-- Boot of one die (R199, R201, R202, R441, R444): its capability registers from the variant descriptor and the results of
B5, its border edges, its stacks with their repairs.  A die that does not boot reads DIE_CAP = 0 (R442). -/
def bootDie (s : State) (d : Nat) : State :=
  let b := dieBlk d
  let v := s.secure.variant
  if s.secure.deadDies.contains d then setReg s (b + 8) 0
  else
    let s := wf (wf (wf (wf s b DIE_ID_PART v.part.toNat) b DIE_ID_Y (d / 6)) b DIE_ID_X (d % 6)) b DIE_ID_DIE d
    let deg := (List.range 16).foldl (fun n c => if s.secure.degraded.contains (d * 16 + c) then n + 2 ^ c else n) 0
    let ok := (List.range 4).foldl (fun n k => if s.secure.badStacks.contains (d * 4 + k) then n else n + 2 ^ k) 0
    let s := wf (wf s b DIE_CAP_CLDEG deg) b DIE_CAP_HBMOK ok
    let s := wf (wf s b DIE_CAP_LINK (b2n (!s.secure.noLink.contains d))) b DIE_CAP_GCMP (b2n v.gcmp)
    let s := wf (wf s b DIE_CAP_PLU_LOCAL (b2n (hasPlu s d))) b DIE_CAP_PLU_ROW (b2n v.plu)
    let s := wf s b DIE_CAP_CAPREV 1
    let absent := (List.range 4).foldl (fun n k => if edgePresent s d k then n else n + 2 ^ k) 0
    let s := wf s (meshBlk d) ⟨0, 8, 4⟩ absent
    (List.range 4).foldl (fun s k =>
      let h := hbmBlk d k
      let sp := tget none s.secure.spareUsed (d * 4 + k)
      let s := wf s h HBM_STATUS_UP (b2n (!s.secure.badStacks.contains (d * 4 + k)))
      let s := wf s h HBM_STATUS_SPARE_USED (b2n sp.isSome)
      let s := wf s h HBM_CNT_ROWS ((goodRepairs s).filter fun r => r.stack == d * 4 + k).length
      setHbm s d k { HbmSt.reset with spareChan := sp }) s

/-- A stage completes. -/
def stageDone (s : State) (n : Nat) : State := { s with secure := { s.secure with stage := n } }

/-- The module stops in recovery (R442). -/
def enterRecovery (s : State) : State :=
  setBit { s with secure := { s.secure with recovery := true } } bar0Blk MCI_STATUS_FATAL

/-- B1 (R441, R453): the rollback counter is the copy with the higher sequence number. -/
def bootB1 (s : State) (r : BootResult) : State :=
  if !r.ok then enterRecovery s
  else
    let best := s.secure.counterCopies.foldl (fun m c => if m.1 ≤ c.1 then c else m) (0, 0)
    stageDone { s with secure := { s.secure with counter := best.2 } } 1

/-- Whether what B2 verifies holds (R439, R441, R444): signers, variant descriptor, repair table, calibration blob, and
the descriptor's die count against the dies that answer on the spine. -/
def flashOk (s : State) (r : BootResult) : Bool :=
  let x := s.secure
  x.signers.length == 2 && x.signers.all signerOk && objectValid x 2 x.variantObj && objectValid x 3 x.repairObj
    && objectValid x 4 x.calibObj && (Variant.ofBody (objectBody x.variantObj)).ndie == r.answer

/-- B2 (R441, R443, R446): the part is what its descriptor says. -/
def bootB2 (s : State) (r : BootResult) : State :=
  if !flashOk s r then enterRecovery s
  else
    let s := { s with secure := { s.secure with variant := Variant.ofBody (objectBody s.secure.variantObj) } }
    let s := s.secure.signers.foldl (fun s c => extendMr s 0 1 c) s
    let s := extendMr (extendMr (extendMr s 1 2 s.secure.variantObj) 1 2 s.secure.repairObj) 1 2 s.secure.calibObj
    stageDone s 2

/-- Index of the first bank in a state (R452). -/
def bankIn (s : State) (x : BankState) : Option Nat := indexOf (fun b : Bank => b.state == x) s.secure.banks

/-- Bank replaced. -/
def setBank (s : State) (i : Nat) (b : Bank) : State :=
  { s with secure := { s.secure with banks := s.secure.banks.set i b } }

/-- Bank `i`. -/
def getBank (s : State) (i : Nat) : Bank := s.secure.banks.getD i Bank.none

/-- Whether a bank may run (R441, R452, R453): its bundle verifies and its SVN meets the counter. -/
def bankRuns (s : State) (i : Nat) : Bool :=
  let b := getBank s i
  objectValid s.secure 1 b.bytes && (b.state == .active || b.state == .trial || b.state == .staged)
    && decide (s.secure.counter.toNat ≤ b.svn.toNat)

/-- The bank that B3 selects (R452): a bank on trial that has not been booted yet, else the ACTIVE one; a bank whose one
boot is over returns to STAGED. -/
def selectBank (s : State) : State × Nat :=
  match bankIn s .trial with
  | none => (s, (bankIn s .active).getD 0)
  | some i =>
    if s.secure.trialBoot then
      let s := setBank s i { getBank s i with state := .staged }
      ({ s with secure := { s.secure with trialBoot := false } }, (bankIn s .active).getD 0)
    else ({ s with secure := { s.secure with trialBoot := true } }, i)

/-- B3 (R441, R442, R446): where the bank selected does not run, the other is tried. -/
def bootB3 (s : State) : State :=
  let (s, i) := selectBank s
  let run (s : State) (k : Nat) : State :=
    stageDone (extendMr { s with secure := { s.secure with running := k } } 0 1 (slice (getBank s k).bytes 0 4096)) 3
  if bankRuns s i then run s i
  else if bankRuns s (1 - i) then run s (1 - i)
  else enterRecovery s

/-- B4 (R441, R445, R446): Torter runs; the repair log is checked, a record that fails is skipped with a notice. -/
def bootB4 (s : State) : State :=
  let b := runningBank s
  let s := wf (wf (wf s bar0Blk MCI_ID_FWREV b.fwrev.toNat) bar0Blk MCI_ID_VMAX b.vmax.toNat) bar0Blk MCI_ID_VMIN
    b.vmin.toNat
  let s := (s.secure.repairLog.filter fun r => !Config.kmacOk r.bytes).foldl
    (fun s r => raiseNotice s (r.stack / 4) 5 (lmod s 0) (r.stack / 4) (r.stack % 4) 9 1) s
  stageDone (extendMr s 2 3 ((goodRepairs s).map (·.bytes)).flatten) 4

/-- Spare cores by die × 256 + core: a failed core's logical number is carried by position 16 (R92). -/
def coreRepairs (table : List Byte) : Tab Nat :=
  (List.range 576).filterMap fun i =>
    (Config.repairCore table (i / 16) (i % 16)).map fun k => (i / 16 * 256 + i % 16 * 16 + k.val, 16)

/-- Spare columns by (die × 256 + core) × 4 + matrix engine: the logical column that column 32 stands for (R98). -/
def columnRepairs (table : List Byte) : Tab Nat :=
  (List.range 36864).filterMap fun i =>
    (Config.repairColumn table (i / 1024) (i / 4 % 256) (i % 4)).map fun k => (i, k.val)

/-- B5 (R92, R98, R441): self-test results, and the repair table applied. -/
def bootB5 (s : State) (r : BootResult) : State :=
  let table := objectBody s.secure.repairObj
  stageDone { s with secure := { s.secure with
    degraded := r.failed, coreMap := coreRepairs table, colMap := columnRepairs table } } 5

/-- B7 (R441, R446, R454): READY; each row with a valid cartridge has its lasers on and its links begin to train. -/
def bootB7 (s : State) : State :=
  let s := setBit s bar0Blk MCI_STATUS_READY
  let s := (List.range (nrow s)).foldl (fun s k =>
    let s := extendMr s 1 2 (getRow s k).identity
    if !cartridgeOk s k then
      raiseNotice ((rowDies k).foldl (fun s d => setLkState s d 5) (modRow s k fun x => { x with service := true }))
        (6 * k) 7 (lmod s 0) 0 k 7 3
    else (rowDies k).foldl (fun s d => startTrain s d false) (modRow s k fun x => { x with lasersOff := false })) s
  stageDone s 7

/-- The PWR_GOOD pin (R460, R461, R466): asserted once the rails stand, and not while the module is held in reset. -/
def pwrGoodPin (s : State) : Bool := s.supply.powerGood && s.supply.refclk && !s.supply.resetLow

/-- Whether boot goes on: supply and clock in range, the reset input released, no recovery (R460, R462, R463). -/
def bootRuns (s : State) : Bool := pwrGoodPin s && !s.secure.recovery

/-- BOOT_STAGE (R441): the next stage. -/
def execBootStage (r : BootResult) (s : State) : Out :=
  .next <|
    if !bootRuns s then s
    else match s.secure.stage with
      | 0 => bootB1 s r
      | 1 => bootB2 s r
      | 2 => bootB3 s
      | 3 => bootB4 s
      | 4 => bootB5 s r
      | 5 =>
        let s := { s with secure := { s.secure with
          deadDies := r.failed, badStacks := r.badStacks, noLink := r.noLink } }
        stageDone ((List.range (ndie s)).foldl bootDie s) 6
      | 6 => bootB7 s
      | _ => s

/-! Supply, clock and reset inputs. -/

/-- Supply state changed. -/
def modSupply (s : State) (f : Supply → Supply) : State := { s with supply := f s.supply }

/-- The time-pulse counters as they are read (R434, R464): NS has counted on by a number of nanoseconds that the model does
not know, and holds at 2^32 - 1 (log 12). -/
def tickNs (s : State) : State :=
  let (w, s) := drawFree s
  modSupply s fun p => { p with ns := BitVec.ofNat 32 (min (2 ^ 32 - 1) (p.ns.toNat + w.toNat)) }

/-- PWR_EN_ASSERT (R460). -/
def execPwrEnAssert (s : State) : Out := .next (modSupply s fun p => { p with enabled := true })

/-- POWER_UP_STAGE (R460): the next rails come into range; with the last PWR_GOOD is asserted and boot may start. -/
def execPowerUpStage (s : State) : Out :=
  let p := s.supply
  .next <|
    if !p.enabled || !p.inputOk || p.waitRange || 3 ≤ p.rails then s
    else modSupply s fun p => { p with rails := p.rails + 1, powerGood := decide (p.rails + 1 = 3) }

/-- POWER_DOWN_TRIGGER (R461): everything that is not in flash is lost; after an undervoltage or overvoltage the input
must stay in range before the module powers up. -/
def execPowerDownTrigger (cause : DownCause) (s : State) : Out :=
  let t := moduleReset s 0
  .next <|
    modSupply t fun p =>
      { p with
        powerGood := false, rails := 0
        enabled := p.enabled && cause != .disabled
        inputOk := p.inputOk && cause == .disabled
        waitRange := p.waitRange || cause != .disabled }

/-- INPUT_VOLTAGE_IN_RANGE (R460, R461): the input has stayed in the recommended range for 100 ms. -/
def execInputVoltageInRange (s : State) : Out :=
  .next (modSupply s fun p => { p with inputOk := true, waitRange := false })

/-- RESET_N_ASSERT (R435, R462): module reset, held while the input is low. -/
def execResetNAssert (s : State) : Out :=
  .next (modSupply (if s.supply.powerGood then moduleReset s 1 else s) fun p => { p with resetLow := true })

/-- RESET_N_RELEASE (R462): boot starts at B1. -/
def execResetNRelease (s : State) : Out := .next (modSupply s fun p => { p with resetLow := false })

/-- REFCLK_LOSS (R463): module reset, held while the clock is missing. -/
def execRefclkLoss (s : State) : Out :=
  .next (modSupply (if s.supply.powerGood then moduleReset s 2 else s) fun p => { p with refclk := false })

/-- REFCLK_RETURN (R463): the clock has been back for 1 ms. -/
def execRefclkReturn (s : State) : Out := .next (modSupply s fun p => { p with refclk := true })

/-- TPULSE_EDGE (R464): an accepted edge. -/
def execTpulseEdge (s : State) : Out := .next (modSupply s fun p => { p with pulse := p.pulse + 1, ns := 0 })

end Sys2Proof.Machine
end

