-- ==== Sys2Proof/Machine/Held.lean ====
section
/-! DEFINITION. The memory window (R383, R384), Torter's own reads and copies on the module, and the requests that waited
for the exit of a die (R420). -/

namespace Sys2Proof.Machine

/-! The window. -/

/-- Where a window offset lies: die and die-local address; none in an unmapped segment (R383). -/
def winAt (s : State) (off : Nat) : Option (Nat × Nat) :=
  let e := (tget 0 s.torter.window (off / 2 ^ 30)).toNat
  if off < 2 ^ 38 && bits e 63 63 = 1 then some (bits e 54 49, bits e 48 30 * 2 ^ 30 + off % 2 ^ 30) else none

/-- Pieces of a window range, one to a segment; none if a segment is not mapped. -/
def winPieces (s : State) : Nat → Nat → Nat → Option (List (Nat × Nat × Nat))
  | 0, _, _ => some []
  | fuel + 1, off, len =>
    if len = 0 then some []
    else
      let n := min len (2 ^ 30 - off % 2 ^ 30)
      match winAt s off, winPieces s fuel (off + n) (len - n) with
      | some (d, l), some rest => some ((d, l, n) :: rest)
      | _, _ => none

/-- Pieces of a window range. -/
def winRange (s : State) (off len : Nat) : Option (List (Nat × Nat × Nat)) := winPieces s (len / 2 ^ 30 + 2) off len

/-- Whether a WOFF and its extent are good: 4,096-byte aligned, in mapped segments (R399). -/
def woffOk (s : State) (off len : Nat) : Bool := off % 4096 == 0 && (winRange s off len).isSome

/-- Bytes at a die-local address as Torter reads them; none where they are poisoned (R195). -/
def ctlRead (s : State) (d l len : Nat) : State × Option (List Byte) :=
  if len = 0 then (s, some [])
  else match memRead s d l len .clean with
    | (s, .poison _) => (s, none)
    | (s, .bytes bs) => (s, some bs)

/-- Pieces read one after another. -/
def ctlReads : State → List (Nat × Nat × Nat) → State × Option (List Byte)
  | s, [] => (s, some [])
  | s, (d, l, n) :: rest =>
    let (s, b) := ctlRead s d l n
    let (s, bs) := ctlReads s rest
    (s, match b, bs with
      | some x, some y => some (x ++ y)
      | _, _ => none)

/-- Bytes of the window; none where a segment is not mapped or a byte is poisoned. -/
def winRead (s : State) (off len : Nat) : State × Option (List Byte) :=
  match winRange s off len with
  | none => (s, none)
  | some ps => ctlReads s ps

/-- Bytes written to pieces. -/
def ctlWrites : State → List (Nat × Nat × Nat) → List Byte → State
  | s, [], _ => s
  | s, (d, l, n) :: rest, bs => ctlWrites (poke s d l (slice bs 0 n)) rest (bs.drop n)

/-- Bytes written to the window; none where a segment is not mapped. -/
def winWrite (s : State) (off : Nat) (bs : List Byte) : Option State :=
  (winRange s off bs.length).map fun ps => ctlWrites s ps bs

/-- Whether a byte is in a poisoned unit, or in a stack that failed (R181, R195). -/
def poisonedAt (s : State) (d l : Nat) : Bool := stackBad s d l || s.poison.contains (memAt d (unitOf l))

/-- A range copied on the module, poison as poison (R219, R377). -/
def copyRange (s : State) (d l d' l' len : Nat) : State :=
  let bad := (List.range len).filter fun i => poisonedAt s d (l + i)
  let s := poke s d' l' (peek s d l len)
  bad.foldl (fun s i => poisonUnit s d' (l' + i)) s

/-- A range copied between lists of pieces of equal total length; `fuel` bounds the parts. -/
def copyPieces : Nat → State → List (Nat × Nat × Nat) → List (Nat × Nat × Nat) → State
  | 0, s, _, _ => s
  | fuel + 1, s, (d, l, n) :: r, (d', l', n') :: r' =>
    let k := min n n'
    let s := copyRange s d l d' l' k
    copyPieces fuel s (if k = n then r else (d, l + k, n - k) :: r) (if k = n' then r' else (d', l' + k, n' - k) :: r')
  | _, s, _, _ => s

/-- A range copied between pieces. -/
def copyAll (s : State) (a b : List (Nat × Nat × Nat)) : State := copyPieces (a.length + b.length) s a b

/-- The dies of a window range whose homes wait for their exit (R420). -/
def winWaiting (s : State) (off len : Nat) : List Nat :=
  (((winRange s off len).getD []).map (·.1)).filter (waitsAt s)

/-- A window access reaches its segments (R383, R422): it is the wake event WINDOW of each die that they are mapped onto. -/
def winWake (s : State) (off len : Nat) : State :=
  ((winRange s off len).getD []).foldl (fun s p => wakeAll s p.1 3) s

/-- A window read performed (R383, R384): an unmapped segment reads as poison. -/
def winReadNow (s : State) (off len : Nat) (ecc : Ecc) : State :=
  match winRange s off len with
  | none => emit s (.window [] true)
  | some [] => emit s (.window [] false)
  | some ((d, l, n) :: rest) =>
    match ctlReads (eccEvent s d l ecc) ((d, l, n) :: rest) with
    | (s, none) => emit s (.window [] true)
    | (s, some bs) => emit s (.window bs false)

/-- A window access performed once no die of its range waits for an exit, else held at the first that does (R420). -/
def winAccess (s : State) (off len : Nat) (h : Held) (now : State → State) : State :=
  match winWaiting s off len with
  | [] => now s
  | d :: _ => holdRequest s d h

/-- A window read arrives. -/
def winReadArrives (s : State) (off len : Nat) (ecc : Ecc) : State :=
  winAccess (winWake s off len) off len (.windowRead off len ecc) fun s => winReadNow s off len ecc

/-- A window write arrives (R383): one to an unmapped segment is discarded. -/
def winWriteArrives (s : State) (off : Nat) (data : List Byte) : State :=
  winAccess (winWake s off data.length) off data.length (.windowWrite off data) fun s => (winWrite s off data).getD s

/-- A request that waited is served after the exit (R420). -/
def serveHeld (s : State) (t : Nat) (h : Held) : State :=
  match h with
  | .reg a v => regionRegWrite s a v
  | .request r => performNow s r t (addrLocal r.addr)
  | .packet d opc p => if opc = 1 then readHome s d p else writeHome s d p
  | .windowRead off len ecc => winReadArrives s off len ecc
  | .windowWrite off data => winWriteArrives s off data

/-- Every request that waited in the mesh node of a die is served, oldest first. -/
def serveAllHeld (s : State) (d : Nat) : State :=
  (getPow s d).held.foldl (fun s h => serveHeld s d h) (modPow s d fun p => { p with held := [] })

end Sys2Proof.Machine
end

