-- ==== Sys2Proof/Machine/Power.lean ====
section
/-! DEFINITION. Power states and clocks (R410-R431, R459, R468): steps and caps, entry and exit, wakes, held pads, and the
power domains of R30. -/

namespace Sys2Proof.Machine

/-! Steps and neighbours (R411-R415). -/

/-- Current step. -/
def curStep (s : State) (d : Nat) : Nat := rf s (pwrBlk d) DVFS_STATUS_CUR

/-- Requested step. -/
def reqStep (s : State) (d : Nat) : Nat := rf s (pwrBlk d) DVFS_CTRL_REQ

/-- The cap in force: the slower of R416 and R459. -/
def capStep (s : State) (d : Nat) : Nat := max (getPow s d).capT.toNat (getPow s d).capL.toNat

/-- Whether a die has a step: its VCORE is neither at retention nor off (R413).  From step 6 of an exit on it has one
again. -/
def clocked (s : State) (d : Nat) : Bool := (getPow s d).vcore == .on

/-- The dies that a mesh edge joins to a die (R183, R413). -/
def neighbours (s : State) (d : Nat) : List Nat :=
  ((List.range 4).filter fun k => edgePresent s d k).map (neighbour d)

/-- Its clocked neighbours. -/
def clockedNeighbours (s : State) (d : Nat) : List Nat := (neighbours s d).filter (clocked s)

/-- Steps at which a die counts: while it ramps, both its old and its new one (R413). -/
def positions (s : State) (d : Nat) : List Nat :=
  curStep s d :: ((getPow s d).ramp.map (·.toNat)).toList

/-- Steps that every clocked neighbour permits: within two of each (R413). -/
def stepPermitted (s : State) (d x : Nat) : Bool :=
  (clockedNeighbours s d).all fun n => (positions s n).all fun p => decide (p ≤ x + 2) && decide (x ≤ p + 2)

/-- The permitted step nearest to one wanted (R414); the present step where none is permitted. -/
def nearestStep (s : State) (d want : Nat) : Nat :=
  let order := (List.range 6).flatMap fun k => [want + k, want - k]
  (order.find? fun x => decide (x ≤ 5) && decide (capStep s d ≤ x) && stepPermitted s d x).getD (curStep s d)

/-- A die begins to move to a step (R412). -/
def startRamp (s : State) (d t : Nat) : State :=
  if t = curStep s d && (getPow s d).ramp = none then s
  else setBit (modPow s d fun p => { p with ramp := some (BitVec.ofNat 3 t) }) (pwrBlk d) DVFS_STATUS_RAMPING

/-- A step request granted (R414). -/
def grantStep (s : State) (d req : Nat) : State :=
  let want := max req (capStep s d)
  let t := nearestStep s d want
  let s := if t = want then (if t = curStep s d then wf s (pwrBlk d) DVFS_STATUS_CLAMPED 0 else s)
    else bump (setBit s (pwrBlk d) DVFS_STATUS_CLAMPED) (pwrBlk d) PWR_CNT_CLAMP 1
  startRamp s d t

/-- Clamped dies move on by themselves as their neighbours move (R414). -/
def nudge (s : State) (d : Nat) : State :=
  (d :: neighbours s d).foldl (fun s x =>
    let want := max (reqStep s x) (capStep s x)
    if rfb s (pwrBlk x) DVFS_STATUS_CLAMPED && (getPow s x).ramp = none && (getPow s x).request = none
        && nearestStep s x want != curStep s x then
      modPow s x fun p => { p with request := some (BitVec.ofNat 3 (reqStep s x)) }
    else s) s

/-- A step asked for (R414, R431): a newer request replaces the older; 6 and 7 leave REQ unchanged (R11). -/
def dvfsRequest (s : State) (d : Nat) (step : Nat) : State :=
  if 6 ≤ step then s
  else modPow (wf s (pwrBlk d) DVFS_CTRL_REQ step) d fun p => { p with request := some (BitVec.ofNat 3 step) }

/-- DVFS_REQUEST (R412, R414). -/
def execDvfsRequest (d : Die) (step : BitVec 3) (s : State) : Out := onDie d.val s (dvfsRequest s d.val step.toNat)

/-- DVFS_RAMP_DONE (R412, R414). -/
def execDvfsRampDone (d : Die) (s : State) : Out :=
  let n := d.val
  onDie n s <|
    match (getPow s n).ramp with
    | none => s
    | some t =>
      let s := modPow (wf (wf s (pwrBlk n) DVFS_STATUS_CUR t.toNat) (pwrBlk n) DVFS_STATUS_RAMPING 0) n
        fun p => { p with ramp := none }
      let s := if t.toNat = max (reqStep s n) (capStep s n) then wf s (pwrBlk n) DVFS_STATUS_CLAMPED 0 else s
      nudge s n

/-- Dies that hold one of the ramps from off (R428). -/
def rampsFromOff (s : State) : Nat := ((List.range (ndie s)).filter fun d => (getPow s d).ramping).length

/-- Whether a port of the power controller asks (R415): a ramp from off that may be granted, or a step of a die that is
clocked and not ramping; port 36 is the module controller. -/
def portAsks (s : State) (k : Nat) : Bool :=
  if k = 36 then s.supply.modReqs != []
  else decide (k < ndie s) &&
    (((getPow s k).rampAsked && decide (rampsFromOff s < 12))
      || ((getPow s k).request.isSome && (getPow s k).ramp = none && clocked s k))

/-- The request of a port served. -/
def servePort (s : State) (k : Nat) : State :=
  if k = 36 then
    match s.supply.modReqs with
    | [] => s
    | (d, st) :: rest =>
      let s := modSupply s fun p => { p with modReqs := rest }
      let s := dvfsRequest s d.val st.toNat
      if clocked s d.val then grantStep (modPow s d.val fun p => { p with request := none }) d.val st.toNat else s
  else if (getPow s k).rampAsked && decide (rampsFromOff s < 12) then
    modPow s k fun p => { p with rampAsked := false, ramping := true }
  else
    let r := (getPow s k).request.getD 0
    grantStep (modPow s k fun p => { p with request := none }) k r.toNat

/-- POWER_REQUEST_GRANT (R25, R413-R415, R428): one request is granted. -/
def execPowerRequestGrant (s : State) : Out :=
  .next <|
    match rotFirst 37 s.supply.arb (portAsks s) with
    | none => s
    | some k => servePort (modSupply s fun p => { p with arb := (k + 1) % 37 }) k

/-! Caps (R416, R417, R459). -/

/-- A die's next step as far as it is decided. -/
def boundStep (s : State) (d : Nat) : Nat := ((getPow s d).ramp.map (·.toNat)).getD (curStep s d)

/-- One round in which every die that stands more than two steps faster than a clocked neighbour follows it (R416). -/
def followRound (s : State) (v : List Nat) : List Nat :=
  (List.range (ndie s)).map fun d =>
    let x := v.getD d 0
    if !clocked s d then x
    else (clockedNeighbours s d).foldl (fun x n => max x (v.getD n 0 - 2)) x

/-- `k` rounds. -/
def follow (s : State) : Nat → List Nat → List Nat
  | 0, v => v
  | k + 1, v => follow s k (followRound s v)

/-- The dies move to the steps given, and a neighbour that would then stand more than two steps away is clamped in the same
grant (R414, R416). -/
def followFrom (s : State) (v0 : List Nat) : State :=
  let v := follow s (ndie s) v0
  (List.range (ndie s)).foldl (fun s d =>
    let x := v.getD d 0
    let s := if x = v0.getD d 0 then s
      else bump (setBit s (pwrBlk d) DVFS_STATUS_CLAMPED) (pwrBlk d) PWR_CNT_CLAMP 1
    if x = boundStep s d then s else startRamp s d x) s

/-- The caps take effect at once: a capped die slows down, and its neighbours with it (R416). -/
def applyCaps (s : State) : State :=
  followFrom s ((List.range (ndie s)).map fun d =>
    if clocked s d then max (boundStep s d) (capStep s d) else boundStep s d)

/-- CAP and THROTTLED as the caps stand (R416, R459). -/
def showCap (s : State) (d : Nat) : State :=
  let s := wf s (pwrBlk d) DVFS_STATUS_CAP (capStep s d)
  wf s (pwrBlk d) DVFS_STATUS_THROTTLED (b2n (capStep s d != 0 || s.supply.lugOpen))

/-- The temperature cap of a die moved (R416). -/
def moveCapT (s : State) (d : Nat) (c : Nat) : State :=
  let s := bump (modPow s d fun p => { p with capT := BitVec.ofNat 3 c, cool := 0 }) (pwrBlk d) PWR_CNT_THROTTLE 1
  modPow (showCap s d) d fun p => { p with request := some (BitVec.ofNat 3 (reqStep s d)) }

/-- Largest difference of a die to a clocked neighbour, in 1/16 K, downwards as a hotter die (R416). -/
def hotter (s : State) (tj : List Int) (d : Nat) : Int :=
  (clockedNeighbours s d).foldl (fun m n => max m (tj.getD d 0 - tj.getD n 0)) 0

/-- Largest difference in either direction (R431: NDELTA). -/
def ndelta (s : State) (tj : List Int) (d : Nat) : Int :=
  (clockedNeighbours s d).foldl (fun m n => max m (tj.getD d 0 - tj.getD n 0).natAbs) 0

/-- A die at 110 °C (R417): its cores reset, its channels aborted, VCORE off, a notice. -/
def dieTrip (s : State) (d : Nat) : State :=
  let s := (List.range 256).foldl (fun s n => coreReset s d n) s
  let s := (List.range 512).foldl (fun s k => abortWrite s d (k / 32) (k % 32)) s
  nudge (raiseNotice (modPow s d fun p => { p with tripped := true, vcore := .off, ramp := none }) d 1 (lmod s d) d 0 8 3) d

/-- Whether a cap was moved because of TJ alone and TJ is still at 95 °C or above (R417). -/
def stillHot (p : PowSt) (t : Int) : Bool := p.capHot && decide (1520 ≤ t)

/-- The step that one evaluation moves the temperature cap of a clocked die: hotter than a neighbour by more than 25 K, or
at 100 °C, one step slower; the tenth in a row with no difference above 20 K, and below 95 °C where TJ caused the cap, one
step faster (R416, R417). -/
def moveDieCap (tj : List Int) (s : State) (d : Nat) : State :=
  let t := tj.getD d 0
  let p := getPow s d
  let c := p.capT.toNat
  let s := modPow s d fun p => { p with capHot := decide (1600 ≤ t) || stillHot p t }
  if 400 < hotter s tj d || 1600 ≤ t then
    if c < 5 then raiseNotice (moveCapT s d (c + 1)) d 1 (lmod s d) d 0 8 (if 1600 ≤ t then 2 else 1)
    else modPow s d fun p => { p with cool := 0 }
  else if c = 0 then s
  else if hotter s tj d ≤ 320 && !stillHot p t then
    (if 10 ≤ p.cool + 1 then moveCapT s d (c - 1) else modPow s d fun p => { p with cool := p.cool + 1 })
  else modPow s d fun p => { p with cool := 0 }

/-- One die at a thermal evaluation (R416, R417): at 110 °C it trips whatever its state, while its die controller has
power; a clocked die's cap moves. -/
def evalDie (tj : List Int) (s : State) (d : Nat) : State :=
  let p := getPow s d
  if 1760 ≤ tj.getD d 0 then (if p.tripped || p.hbm = .off then s else dieTrip s d)
  else if clocked s d then moveDieCap tj s d
  else s

/-- Sensors shown (R431). -/
def showTemp (tj : List Int) (s : State) (d : Nat) : State :=
  wf (wf s (pwrBlk d) PWR_TEMP_TJ (BitVec.ofInt 16 (tj.getD d 0)).toNat) (pwrBlk d) PWR_TEMP_NDELTA
    (BitVec.ofInt 16 (ndelta s tj d)).toNat

/-- THERMAL_EVALUATION (R416, R417): junction temperatures by die, in 1/16 °C. -/
def execThermalEvaluation (tj : List Int) (s : State) : Out :=
  let s := (List.range (ndie s)).foldl (showTemp tj) s
  .next (applyCaps ((List.range (ndie s)).foldl (evalDie tj) s))

/-- The lug cap of every die moved (R459). -/
def moveCapL (s : State) (c : Nat) : State :=
  let s := (List.range (ndie s)).foldl (fun s d =>
    let s := showCap (modPow s d fun p => { p with capL := BitVec.ofNat 3 c }) d
    modPow s d fun p => { p with request := some (BitVec.ofNat 3 (reqStep s d)) }) s
  applyCaps (modSupply s fun p => { p with lugTicks := 0, lugCalm := 0 })

/-- Lug cap in force. -/
def capL (s : State) : Nat := (getPow s 0).capL.toNat

/-- An open lug found (R459). -/
def findOpenLug (s : State) (ma : List Nat) : State :=
  if s.supply.lugOpen || !(decide (100000 < ma.sum) && ma.any (· < 5000)) then s
  else
    let s := modSupply s fun p => { p with lugOpen := true }
    (List.range (ndie s)).foldl showCap (raiseNotice s 0 0 (lmod s 0) 0 0 8 5)

/-- The overcurrent rule of R459 at one sample of 10 µs. -/
def lugCurrent (s : State) (ma : List Nat) : State :=
  let p := s.supply
  let hot := ma.any (125000 < ·) || (p.lugOpen && decide (375000 < ma.sum))
  if !p.lugOver && !(p.lugOpen && decide (375000 < ma.sum)) then
    if ma.any (130000 < ·) then
      if 10 ≤ p.lugTicks + 1 then
        raiseNotice (moveCapL (modSupply s fun p => { p with lugOver := true }) (min 5 (capL s + 1))) 0 0 (lmod s 0) 0 0 8 4
      else modSupply s fun p => { p with lugTicks := p.lugTicks + 1 }
    else modSupply s fun p => { p with lugTicks := 0 }
  else if !p.lugOver then moveCapL (modSupply s fun p => { p with lugOver := true }) (min 5 (capL s + 1))
  else if hot then
    if 100 ≤ p.lugTicks + 1 then moveCapL s (min 5 (capL s + 1))
    else modSupply s fun p => { p with lugTicks := p.lugTicks + 1, lugCalm := 0 }
  else if ma.all (· ≤ 120000) && !p.lugOpen then
    if 1000 ≤ p.lugCalm + 1 then
      modSupply (moveCapL s (capL s - 1)) fun p => { p with lugOver := decide (1 < capL s) }
    else modSupply s fun p => { p with lugCalm := p.lugCalm + 1, lugTicks := 0 }
  else modSupply s fun p => { p with lugTicks := 0, lugCalm := 0 }

/-- LUG_MONITOR (R459): the four lugs' currents in mA. -/
def execLugMonitor (ma : List Nat) (s : State) : Out := .next (lugCurrent (findOpenLug s ma) ma)

/-! Entry (R423, R424). -/

/-- PWAIT executed by the die controller's firmware (R423): TARGET 0 changes nothing, a reserved one sets BADMODE; else the
die is at AP0 and PAUSEALL is set on every cluster. -/
def pwait (s : State) (d : Nat) : State :=
  let b := pwrBlk d
  let t := rf s b PWR_MODE_TARGET
  let s := bump s b PWR_CNT_ENTRY 1
  if t = 0 then s
  else if 6 ≤ t then setBit s b PWR_STATUS_BADMODE
  else if pwState s d ≠ 0 || (getPow s d).entering.isSome || (getPow s d).exits ≠ [] then s
  else
    let s := wf (setBit s b PWR_STATUS_ENTERING) b PWR_STATUS_POINT 0
    let s := modPow s d fun p => { p with entering := some (BitVec.ofNat 3 t) }
    (List.range 16).foldl (fun s c => pauseallWrite s d c true) s

/-- PWAIT (R423). -/
def execPwait (d : Die) (s : State) : Out := onDie d.val s (pwait s d.val)

/-- Whether a die is ready for AP1 (R423): every core IDLE, DONE or HOLD, every channel PAUSED, IDLE or STOPPED. -/
def quietDie (s : State) (d : Nat) : Bool :=
  ((List.range 256).all fun n => [stIDLE, stDONE, stHOLD].contains (coreState s d n)) &&
    (List.range 512).all fun k => [0, 4, 6].contains (chanState s d (k / 32) (k % 32))

/-- Whether no request of a die's units is outstanding (R423: AP4): of its cores, its channels, its other units. -/
def noneOutstanding (s : State) (d : Nat) : Bool :=
  ((List.range 256).all fun n =>
    let c := getCore s d n
    c.stores.isEmpty && c.orphans.isEmpty && c.loadTag.isNone && (heldFor s d n .load).isNone)
  && ((List.range 512).all fun k =>
    let x := getChan s d (k / 32) (k % 32)
    x.bursts.isEmpty && x.fetch.isNone && x.queue.all fun q => q.tag.isNone)
  && s.asked.all fun a => a.die != d

/-- `n` free bytes from a counter (log 2). -/
def freeBytes (k n : Nat) : List Byte :=
  (List.range n).map fun i => BitVec.ofNat 8 ((Config.freeWord (k + i / 8)).toNat / 256 ^ (i % 8))

/-- AP3 (R429): the saved contents go to the save area; how much they are and how they lie there the manual does not say. -/
def saveContents (s : State) (d : Nat) : State :=
  let (w, s) := drawFree s
  let n := min w.toNat (544 * 2 ^ 20)
  let s := poke s d (getPow s d).saveBase (freeBytes s.fresh n)
  let s := { s with fresh := s.fresh + n / 8 + 1 }
  modPow (wf s (pwrBlk d) PWR_SAVEBYTES_BYTES n) d fun p => { p with saved := true }

/-- A row whose six links are all electrically idle has its lasers dimmed (R423: AP6). -/
def dimRow (s : State) (r : Nat) : State :=
  modRow s r fun x => { x with dimmed := (rowDies r).all fun d => (getPow s d).linkIdle }

/-- The action completed at a point (R423, R427, R430); a die whose VCORE leaves its step gives up its ramp (R413), and its
neighbours may move on (R414). -/
def pointAction (s : State) (d k : Nat) : State :=
  let b := pwrBlk d
  match k with
  | 3 => saveContents s d
  | 4 =>
    modPow (wf (setBit s b PWR_STATUS_CLKFOSC) b PWR_CLKSEL_PLL 0) d fun p =>
      { p with fabricStopped := true, hbm := .powerDown }
  | 5 =>
    nudge (modPow (wf s b DVFS_STATUS_RAMPING 0) d fun p => { p with vcore := .retention, ramp := none }) d
  | 6 => dimRow (modPow (setBit s b PWR_PADHOLD_HBM) d fun p => { p with hbm := .selfRefresh, linkIdle := true }) (d / 6)
  | 7 => modPow (setBit s b PWR_PADHOLD_CORE) d fun p => { p with vcore := .off }
  | 8 =>
    let s := wf (setBit (setBit s b PWR_PADHOLD_LINK) b PWR_PADHOLD_MESH) b PWR_STATUS_PLL_LOCK 0
    let s := if lkState s d = 5 then s else modLink (setLkState s d 0) d fun l => { l with phase := .idle }
    modRow s (d / 6) fun x => { x with lasersOff := true }
  | 9 => modPow (setBit (dieLost s d) b PWR_PADHOLD_SPINE) d fun p => { p with hbm := .off }
  | _ => s

/-- The target is reached (R423); a wake that is waiting leaves it at once (R424), and so does a request accepted
meanwhile (R425). -/
def reachState (s : State) (d t : Nat) : State :=
  let b := pwrBlk d
  let s := wf (wf s b PWR_STATUS_ENTERING 0) b PWR_STATUS_STATE t
  let s := modPow s d fun p => { p with entering := none }
  match (getPow s d).wake with
  | some ev => leaveState s d ev.val (pwPoint s d)
  | none => if (getPow s d).waiting ≠ [] then leaveState s d 0 15 else s

/-- A wake that waits is taken at the point that the die stands at (R424). -/
def takeHere (s : State) (d : Nat) : State :=
  match (getPow s d).wake with
  | some ev => abandonEntry s d ev.val
  | none => s

/-- The die has completed the action of point `k` on its way to `t` (R423, R424): its last point is its state, but Sleep is
reached by every die once all are at AP8, and a die bound for Standby goes on from there with the others. -/
def passedPoint (s : State) (d t k : Nat) : State :=
  if k = 8 && allAtAP8 s then
    (List.range (ndie s)).foldl (fun s x => if (getPow s x).entering = some 4 then reachState s x 4 else s) s
  else if (entryPoints t).getLast? = some k && t ≠ 4 then reachState s d t
  else takeHere s d

/-- Whether a die may complete the action of a point (R423): quiet for AP1, no request outstanding for AP4, every die at
AP8 for AP9. -/
def pointReady (s : State) (d k : Nat) : Bool :=
  match k with
  | 1 => quietDie s d
  | 4 => noneOutstanding s d
  | 9 => allAtAP8 s
  | _ => true

/-- ENTRY_POINT (R423, R424): the action of the next point is completed; a pending wake is taken there. -/
def execEntryPoint (d : Die) (s : State) : Out :=
  let n := d.val
  onDie n s <|
    match (getPow s n).entering with
    | none => s
    | some t =>
      match (entryPoints t.toNat).find? fun k => decide (pwPoint s n < k) with
      | none => s
      | some k =>
        if !pointReady s n k then s
        else passedPoint (wf (pointAction s n k) (pwrBlk n) PWR_STATUS_POINT k) n t.toNat k

/-! Wakes (R422, R424). -/

/-- WAKE_EVENT (R422, R424). -/
def execWakeEvent (d : Die) (ev : Fin 6) (s : State) : Out := onDie d.val s (wakeAll s d.val ev)

/-- PWR_TIMER_EXPIRY (R422): below Run the timer has reached 0. -/
def execPwrTimerExpiry (d : Die) (s : State) : Out :=
  let n := d.val
  onDie n s <|
    if !belowRun s n then s
    else wakeDie (wf s (pwrBlk n) PWR_TIMER_US 0) n 4

/-! Exit (R426-R430). -/

/-- The step a die returns to: the one it held, brought within two steps of every clocked neighbour (R413).  Where the
neighbours stand so far apart that none is within two of each, it takes the fastest that the slowest neighbour permits and
the others follow as under R416 (log 142). -/
def returnStep (s : State) (d : Nat) : State :=
  let want := max (curStep s d) (capStep s d)
  let near := nearestStep s d want
  let slow := (clockedNeighbours s d).foldl (fun m n => max m (boundStep s n - 2)) want
  let t := if stepPermitted s d near then near else slow
  let s := wf (wf s (pwrBlk d) DVFS_STATUS_CUR t) (pwrBlk d) DVFS_STATUS_RAMPING 0
  let s := if t = want then s else setBit s (pwrBlk d) DVFS_STATUS_CLAMPED
  let s := modPow s d fun p => { p with ramp := none, vcore := .on }
  if stepPermitted s d near then s else followFrom s ((List.range (ndie s)).map (boundStep s))

/-- The die controller serves the next request held for its die, in the order accepted (R423, R425): in Run a request for
Run is served by doing nothing, and one for a state below is written to TARGET and PWAIT executed; a die below Run leaves its
state first; during entry a request for Run is the wake event MCTL; during an exit the request waits. -/
def servePower (s : State) (d : Nat) : State :=
  if (getPow s d).exits ≠ [] then s
  else if (getPow s d).entering.isSome then (if (getPow s d).waiting.head? = some 0 then wakeDie s d 0 else s)
  else if pwState s d ≠ 0 then (if (getPow s d).waiting = [] then s else leaveState s d 0 15)
  else match (getPow s d).waiting.dropWhile (· == 0) with
    | [] => modPow s d fun p => { p with waiting := [] }
    | t :: rest => pwait (wf (modPow s d fun p => { p with waiting := rest }) (pwrBlk d) PWR_MODE_TARGET t.toNat) d

/-- The die is in Run again: the requests that waited in its mesh node are served (R420), and the next request held for its
power state (R425). -/
def backInRun (s : State) (d : Nat) : State :=
  let b := pwrBlk d
  let s := (List.range 16).foldl (fun s c => pauseallWrite s d c false) s
  let s := wf (wf s b PWR_STATUS_STATE 0) b PWR_STATUS_POINT 0
  servePower (serveAllHeld s d) d

/-- The action of an exit step (R426). -/
def exitAction (s : State) (d k : Nat) : State :=
  let b := pwrBlk d
  let deep := pwState s d = 4 || pwState s d = 5 || pwPoint s d = 8
  match k with
  | 0 => setBit s b PWR_STATUS_CLKFOSC
  | 1 => modPow (bootDie s d) d fun p => { p with hbm := .running }
  | 2 =>
    let s := setBit s b PWR_STATUS_PLL_LOCK
    if (getPow s d).pllHeld then
      modPow (wf (setBit s b PWR_CLKSEL_PLL) b PWR_STATUS_CLKFOSC 0) d fun p => { p with pllHeld := false }
    else s
  | 3 => modPow s d fun p => { p with ramping := false, vcore := .retention }
  | 4 =>
    let s := modPow s d fun p => { p with linkIdle := false, hbm := if p.hbm = .selfRefresh then .powerDown else p.hbm }
    let s := dimRow s (d / 6)
    if deep then
      let r := getRow s (d / 6)
      let s := if r.latchOpen || r.service then s else modRow s (d / 6) fun x => { x with lasersOff := false }
      startTrain s d (pwState s d != 5)
    else linkPump s d
  | 5 => returnStep s d
  | 6 => modPow s d fun p => { p with fabricStopped := false, hbm := .running }
  | 7 => modPow s d fun p => { p with saved := false }
  | 8 => backInRun s d
  | _ => s

/-- EXIT_STEP (R426, R428): the next step; a ramp of VCORE from off waits for its grant. -/
def execExitStep (d : Die) (s : State) : Out :=
  let n := d.val
  onDie n s <|
    match (getPow s n).exits with
    | [] => s
    | k :: rest =>
      if k = 3 && !(getPow s n).ramping then modPow s n fun p => { p with rampAsked := true }
      else exitAction (modPow s n fun p => { p with exits := rest }) n k.val

/-- PWR_CLKSEL written (R427): a 1 before the PLL has locked is held until lock. -/
def clkselWrite (s : State) (d : Nat) (b : Bool) : State :=
  let p := pwrBlk d
  if !b then modPow (setBit (wf s p PWR_CLKSEL_PLL 0) p PWR_STATUS_CLKFOSC) d fun x => { x with pllHeld := false }
  else if rfb s p PWR_STATUS_PLL_LOCK then wf (setBit s p PWR_CLKSEL_PLL) p PWR_STATUS_CLKFOSC 0
  else modPow s d fun x => { x with pllHeld := true }

/-- PWR_CLKSEL_WRITE (R427). -/
def execPwrClkselWrite (d : Die) (b : Bool) (s : State) : Out := onDie d.val s (clkselWrite s d.val b)

/-- Whether the domain of a pad group is still off (R430): its latching point has been passed and the exit step that
undoes it has not been done.  Groups: 0 CORE, 1 LINK, 2 HBM, 3 MESH, 4 SPINE. -/
def groupOff (s : State) (d g : Nat) : Bool :=
  let pt := [7, 8, 6, 8, 9].getD g 0
  let st : Fin 9 := ([3, 4, 4, 2, 1] : List (Fin 9)).getD g 0
  let p := getPow s d
  decide (pt ≤ pwPoint s d) && (p.exits = [] && (pwState s d != 0 || p.entering.isSome) || p.exits.contains st)

/-- Pad groups released by a mask (R430): a release while the domain is off is ignored. -/
def padRelease (s : State) (d : Nat) (mask : Nat) : State :=
  (List.range 5).foldl (fun s g =>
    if bits mask g g = 1 && !groupOff s d g then wf s (pwrBlk d) ⟨0x28, g, 1⟩ 0 else s) s

/-- PADHOLD_RELEASE (R430). -/
def execPadholdRelease (d : Die) (mask : BitVec 5) (s : State) : Out := onDie d.val s (padRelease s d.val mask.toNat)

/-- Whether firmware has released every latched group of a die that is in Run: Torter then reports it in Run (R430). -/
def reportsRun (s : State) (d : Nat) : Bool :=
  pwState s d == 0 && bits (regWord s (pwrBlk d + 0x28)).toNat 4 0 == 0

/-- The state that Torter reports for a die (R430, R433, R434): after a wake the state that it came from until every group
is released (log 143). -/
def reportedState (s : State) (d : Nat) : Nat :=
  if pwState s d ≠ 0 || (getPow s d).entering.isSome then pwState s d
  else if reportsRun s d then 0 else (getPow s d).left.toNat

/-- A state requested for a die by PWR_SET (R422, R423, R425): it joins the requests accepted for the die, and is served in
its turn. -/
def requestState (s : State) (d t : Nat) : State :=
  let s := modPow s d fun p => { p with waiting := p.waiting ++ [BitVec.ofNat 3 t] }
  let s := if t = 0 && belowRun s d then setBit s (pwrBlk d) PWR_STATUS_PENDING_ON else s
  servePower s d

/-! Power domains of the module (R30, R425). -/

/-- Whether a domain is populated (R30). -/
def domExists (s : State) (k : Nat) : Bool :=
  decide (k < 100) && (ndie s == 36 || !((decide (24 ≤ k) && decide (k ≤ 35)) || (decide (60 ≤ k) && decide (k ≤ 71))
    || (decide (84 ≤ k) && decide (k ≤ 89))))

/-- A domain's switch asked for (R425). -/
def requestDomain (s : State) (k : Nat) (on : Bool) : State :=
  match tget none s.supply.domSwitching k with
  | some _ =>
    modSupply s fun p => { p with domWaiting := tset p.domWaiting k (tget [] p.domWaiting k ++ [on]) }
  | none =>
    if s.supply.domOff.contains k = on then
      modSupply s fun p => { p with domSwitching := tset p.domSwitching k (some on) }
    else s

/-- DOMAIN_SWITCH_DONE (R425): the rails are as asked; the next request held that differs is served. -/
def execDomainSwitchDone (k : Fin 100) (s : State) : Out :=
  .next <|
    match tget none s.supply.domSwitching k.val with
    | none => s
    | some on =>
      let s := modSupply s fun p =>
        { p with
          domOff := if on then p.domOff.filter (· != k.val) else p.domOff ++ [k.val]
          domSwitching := tset p.domSwitching k.val none }
      let rest := (tget [] s.supply.domWaiting k.val).dropWhile (· == on)
      let s := modSupply s fun p => { p with domWaiting := tset p.domWaiting k.val rest.tail }
      match rest with
      | [] => s
      | b :: _ => modSupply s fun p => { p with domSwitching := tset p.domSwitching k.val (some b) }

/-- COOLANT_OUTLET_WARNING (R468): the outlet's temperature in 1/16 °C; above 55 °C a WARNING event. -/
def execCoolantOutletWarning (outlet : Int) (s : State) : Out :=
  let s := modSupply s fun p => { p with outlet := outlet }
  .next (if 880 < outlet then postEvent s 0x07F1 (leBytes 4 0 ++ leBytes 2 0xFFFF ++ [0, 0]) else s)

end Sys2Proof.Machine
end

