-- ==== Sys2Proof/Machine/Paths.lean ====
section
/-! DEFINITION. Command paths (R392-R397, R408, R409, R472): packets, the checks of a header, replies and warnings, rings
(R386-R391), the management port, I3C and SMBus (R465). -/

namespace Sys2Proof.Machine

/-! Status codes (R471). -/

/-- R471. -/
def scOK : Nat := 0
/-- R471. -/
def scUNKNOWN_OPCODE : Nat := 0x0101
/-- R471. -/
def scUNSUPPORTED_VERSION : Nat := 0x0102
/-- R471. -/
def scSEQUENCE_ERROR : Nat := 0x0103
/-- R471. -/
def scINVALID_PARAM : Nat := 0x0104
/-- R471. -/
def scNOT_PERMITTED : Nat := 0x0105
/-- R471. -/
def scUNIT_ABSENT : Nat := 0x0201
/-- R471. -/
def scINCOMPATIBLE_REVISION : Nat := 0x0202
/-- R471. -/
def scNO_STALL : Nat := 0x0301
/-- R471. -/
def scSTALL_BUSY : Nat := 0x0302
/-- R471. -/
def scSTALL_HELD : Nat := 0x0303
/-- R471. -/
def scSTALL_FENCE : Nat := 0x0304
/-- R471. -/
def scDIE_UNAVAILABLE : Nat := 0x0305
/-- R471. -/
def scSTEP_BUSY : Nat := 0x0401
/-- R471. -/
def scSTEP_INCOMPLETE : Nat := 0x0402
/-- R471. -/
def scTALLY_FULL : Nat := 0x0403
/-- R471. -/
def scREPLAY_MISMATCH : Nat := 0x0404
/-- R471. -/
def scTALLY_WRITE_FAILED : Nat := 0x0405
/-- R471. -/
def scPARTNER_SAME_FEED : Nat := 0x0501
/-- R471. -/
def scGUARD_FULL : Nat := 0x0502
/-- R471. -/
def scFILL_BUSY : Nat := 0x0503
/-- R471. -/
def scTALLY_CORRUPT : Nat := 0x0504
/-- R471. -/
def scSTATE_LOST : Nat := 0x0505
/-- R471. -/
def scSIGNATURE_INVALID : Nat := 0x0601
/-- R471. -/
def scROLLBACK_REJECTED : Nat := 0x0602
/-- R471. -/
def scFW_NOT_STAGED : Nat := 0x0603

/-! Opcodes (R399). -/

/-- Kinds of command (R396). -/
inductive OpKind where
  | query
  | stall
  | module
  deriving DecidableEq, Repr

/-- Kind of an opcode (R399); none for one that the table does not list (R400). -/
def opKind (op : Nat) : Option OpKind :=
  if [0x0000, 0x0001, 0x0106, 0x0301, 0x0302, 0x0404, 0x0501, 0x0600, 0x0601, 0x0700, 0x0701, 0x0702, 0x0802, 0x0900].contains op
  then some .query
  else if [0x0200, 0x0401, 0x0500, 0x0502, 0x0800, 0x0801, 0x0901, 0x0902].contains op then some .module
  else if [0x0100, 0x0101, 0x0102, 0x0103, 0x0104, 0x0105, 0x0201, 0x0202, 0x0203, 0x0204, 0x0300, 0x0400, 0x0402, 0x0403,
    0x0405].contains op then some .stall
  else none

/-- Whether a command names a stall: the stall commands, and STALL_QUERY, STEP_END and STEP_QUERY. -/
def namesStall (op : Nat) : Bool := opKind op == some .stall || [0x0106, 0x0301, 0x0302].contains op

/-- Parameter lengths (R399): the bytes that the listed fields cover. -/
def lenOk (op : Nat) (b : List Byte) : Bool :=
  let n := b.length
  if op = 0x0001 then n ≤ 4096
  else if op = 0x0300 then 64 ≤ n && n == 64 + leAt b 32 2
  else if op = 0x0800 then
    (if bits (leAt b 0 1) 0 0 = 0 then n == 24 else 16 ≤ n && n == 16 + leAt b 8 4 && n ≤ 4096)
  else if [0x0000, 0x0101, 0x0103, 0x0104, 0x0105, 0x0106, 0x0302, 0x0404, 0x0501, 0x0802].contains op then n == 0
  else
    let t : List (Nat × Nat) :=
      [(0x0100, 80), (0x0102, 128), (0x0200, 2048), (0x0201, 56), (0x0202, 32), (0x0203, 12), (0x0204, 28), (0x0301, 8),
       (0x0400, 12), (0x0401, 4), (0x0402, 8), (0x0403, 224), (0x0405, 8), (0x0500, 32), (0x0502, 2), (0x0600, 33),
       (0x0601, 12), (0x0700, 8), (0x0701, 16), (0x0702, 12), (0x0801, 1), (0x0900, 1), (0x0901, 2), (0x0902, 12)]
    t.any fun p => p.1 == op && p.2 == n

/-- Reserved parameter bits of the STALL_FORM parameters (R402). -/
def formResv (b : List Byte) : Bool := zeroBytes b 2 7 && leAt b 8 8 / 2 ^ 36 == 0

/-- Reserved parameter bits of the JOB_CONFIG parameters (R405). -/
def jobResv (b : List Byte) : Bool :=
  leAt b 16 8 / 2 ^ 49 == 0 && leAt b 24 1 / 64 == 0 && leAt b 25 1 / 16 == 0 && leAt b 32 8 / 2 ^ 49 == 0
    && leAt b 40 8 / 2 ^ 49 == 0 && leAt b 53 1 / 4 == 0 && zeroBytes b 54 55 && leAt b 88 1 / 64 == 0
    && zeroBytes b 89 91 && leAt b 96 8 / 2 ^ 49 == 0 && zeroBytes b 106 127

/-- Whether every reserved parameter field of a command is 0 (R392, R399). -/
def resvOk (op : Nat) (b : List Byte) : Bool :=
  match op with
  | 0x0100 => formResv b
  | 0x0102 => jobResv b
  | 0x0201 => leAt b 16 8 / 2 ^ 36 == 0
  | 0x0202 => leAt b 0 8 / 2 == 0
  | 0x0204 => leAt b 0 8 / 64 == 0
  | 0x0300 => leAt b 34 2 / 2 == 0 && zeroBytes b 36 63
  | 0x0401 => leAt b 0 2 / 512 == 0 && leAt b 2 2 / 512 == 0
  | 0x0403 => leAt b 0 8 / 512 == 0 && formResv (slice b 16 80) && jobResv (slice b 96 128)
  | 0x0500 =>
    leAt b 0 8 / 2 ^ 36 == 0 && leAt b 10 1 / 2 == 0 && leAt b 11 1 / 16 == 0 && zeroBytes b 12 15
      && leAt b 16 8 / 2 ^ 49 == 0 && zeroBytes b 24 31
  | 0x0600 => leAt b 32 1 / 64 == 0
  | 0x0601 => leAt b 0 4 / 16 == 0
  | 0x0800 => leAt b 0 4 / 2 == 0 && zeroBytes b 12 15
  | 0x0801 => leAt b 0 1 / 2 == 0
  | 0x0900 => leAt b 0 1 / 64 == 0
  | 0x0901 => leAt b 0 1 / 8 == 0 && leAt b 1 1 / 2 == 0
  | _ => true

/-- Whether a path serves an opcode (R408, R409, R442). -/
def permitted (s : State) (p op : Nat) (b : List Byte) : Bool :=
  if s.secure.recovery then
    (p == 16 && ([0x0000, 0x0802, 0x0801].contains op || (op == 0x0800 && bits (leAt b 0 1) 0 0 == 1)))
      || (p == 17 && [0x0000, 0x0802].contains op)
  else if p = 16 then [0, 5, 6, 7, 8, 9].contains (op / 256) || [0x0104, 0x0106, 0x0302, 0x0404].contains op
  else if p = 17 then [0x0000, 0x0501, 0x0701, 0x0700].contains op
  else true

/-! Packets and replies. -/

/-- The packet that bytes spell (R392). -/
def packetOf (sender : Nat) (b : List Byte) : Pkt :=
  { version := BitVec.ofNat 8 (leAt b 0 1), flags := BitVec.ofNat 8 (leAt b 1 1), opcode := BitVec.ofNat 16 (leAt b 2 2),
    tag := BitVec.ofNat 16 (leAt b 4 2), stall := BitVec.ofNat 16 (leAt b 6 2), len := leAt b 8 4
    resv := !(zeroBytes b 12 15 && zeroBytes b 24 31), seq := leWord (slice b 16 8), params := b.drop 32, sender := sender }

/-- Versions served (R386, R395); in recovery the version that the manual defines. -/
def versions (s : State) : Nat × Nat :=
  if s.secure.recovery then (1, 1) else (rf s bar0Blk MCI_ID_VMIN, rf s bar0Blk MCI_ID_VMAX)

/-- A path. -/
def getPath (s : State) (p : Nat) : PathSt := tget PathSt.reset s.torter.paths p

/-- A path changed. -/
def modPath (s : State) (p : Nat) (f : PathSt → PathSt) : State :=
  modTorter s fun t => { t with paths := tset t.paths p (f (tget PathSt.reset t.paths p)) }

/-- Stalls formed on the module. -/
def stalls (s : State) : List (Nat × StallSt) :=
  s.torter.stalls.filterMap fun p => p.2.map fun x => (p.1, x)

/-- Dies of the module that belong to a stall, ascending. -/
def stallDies (s : State) (x : StallSt) : List Nat := (List.range (ndie s)).filter fun d => x.dies.getLsbD d

/-- Bits of WARN (R393) for a stall; GUARD_LOST holds for a stall with a job while the module has no guardian (R346,
R365). -/
def warnOf (s : State) (g : Nat) : Nat :=
  match getStall s g with
  | none => 0
  | some x =>
    b2n (x.job != [] && s.torter.guardian.isNone) + 2 * b2n x.sharedFeed + 4 * b2n x.snapSkipped + 8 * b2n x.nonfinite
      + 16 * b2n ((stallDies s x).any fun d => rfb s (linkBlk d) LK_STATUS_DEGRADED)

/-- A reply to a packet (R393, R395). -/
def mkReply (s : State) (k : Pkt) (st : Nat) (data : List Byte) : Reply :=
  { version := if st = scUNSUPPORTED_VERSION then BitVec.ofNat 8 (versions s).2 else k.version
    status := BitVec.ofNat 16 st, tag := k.tag, stall := k.stall, warn := BitVec.ofNat 32 (warnOf s k.stall.toNat)
    seq := k.seq, opcode := k.opcode, quiet := k.flags.getLsbD 2, data := data, sender := k.sender }

/-- Bytes of a reply (R393). -/
def replyBytes (r : Reply) (phase : Bool) : List Byte :=
  [r.version, BitVec.ofNat 8 (b2n phase)] ++ leBytes 2 r.status.toNat ++ leBytes 2 r.tag.toNat ++ leBytes 2 r.stall.toNat
    ++ leBytes 4 r.data.length ++ leBytes 4 r.warn.toNat ++ leBytes 8 r.seq.toNat ++ leBytes 2 r.opcode.toNat
    ++ List.replicate 6 0 ++ r.data

/-- Slots that a reply takes (R389). -/
def replySlots (r : Reply) : Nat := ceilDiv (32 + r.data.length) 64

/-- Whether a queue's ENABLE is set. -/
def queueOn (s : State) (q : Nat) : Bool := rfb s (queueBlk q) Q_CFG_ENABLE

/-- CPLFULL and ACTIVE as the queue stands (R387). -/
def showQueue (s : State) (q : Nat) : State :=
  let p := getPath s q
  let s := wf s (queueBlk q) Q_STATUS_ACTIVE (b2n p.current.isSome)
  wf s (queueBlk q) Q_STATUS_CPLFULL (b2n (p.replies.any fun r => cplRoom s q < replySlots r))

/-- A reply leaves for its path: a ring's waits for its slots (R389) or is discarded (R390), a datagram goes out (R408), an
I3C reply is announced by an IBI (R465). -/
def deliverReply (s : State) (p : Nat) (r : Reply) : State :=
  if p < 16 then
    if (getRing s p).discard then showQueue (modRing s p fun x => { x with discard := false }) p
    else if queueOn s p then showQueue (modPath s p fun x => { x with replies := x.replies ++ [r] }) p
    else showQueue s p
  else if p = 16 then emit s (.datagram r.sender (replyBytes r false))
  else
    let s := modPath s p fun x => { x with replies := x.replies ++ [r] }
    if r.sender = 0 then emit s (.ibi 1) else s

/-! Sequence states (R394). -/

/-- Key of a sender's sequence state: only the management path tells senders apart (R408). -/
def seqKey (p sender : Nat) : Nat := if p = 16 then sender else 0

/-- A sender's sequence state put first; the management path keeps eight, any other one (R394, R408). -/
def putSeq (s : State) (p : Nat) (x : SeqSt) : State :=
  modPath s p fun t => { t with seqs := (x :: t.seqs.filter fun y => y.sender != x.sender).take (if p = 16 then 8 else 1) }

/-- The reply to the last executed packet kept (R394). -/
def keepReply (s : State) (p : Nat) (r : Reply) : State :=
  modPath s p fun t =>
    { t with seqs := t.seqs.map fun y =>
        if y.sender = seqKey p r.sender && y.seq = r.seq then { y with reply := some r } else y }

/-- What the checks of a packet's header find (R472, points 1 to 5). -/
inductive HeadCheck where
  | fine
  /-- a status, with its data -/
  | status (st : Nat) (data : List Byte)
  deriving DecidableEq, Repr

/-- Points 3 to 5 of R472. -/
def headCheck (s : State) (p : Nat) (k : Pkt) : HeadCheck :=
  let op := k.opcode.toNat
  let f := k.flags.toNat
  if (opKind op).isNone then .status scUNKNOWN_OPCODE []
  else if !permitted s p op k.params then .status scNOT_PERMITTED []
  else if k.resv || 8 ≤ f || (bits f 0 0 == 1 && op != 0x0401) || (bits f 1 1 == 1 && op != 0x0300)
      || k.len != k.params.length || 4096 < k.len || !lenOk op k.params || !resvOk op k.params
      || (decide (256 ≤ k.stall.toNat) && k.stall.toNat != 0xFFFF)
      || (!namesStall op && op != 0x0404 && k.stall.toNat != 0xFFFF) then .status scINVALID_PARAM []
  else .fine

/-- Whether a path has a packet ready to be taken (R396): a ring's path waits while a reply of it does (R389), the I3C path
while one has not been read. -/
def pathReady (s : State) (p : Nat) : Bool :=
  let t := getPath s p
  t.current.isNone && (p == 16 || t.replies == []) && !(decide (p < 16) && rfb s bar0Blk MCI_STATUS_FATAL) && t.accepted != []

/-- ACTIVE of a queue's path. -/
def showPath (s : State) (p : Nat) : State := if p < 16 then showQueue s p else s

/-- A packet whose sequence number has it executed (R394): its header is checked, and its command is accepted or answered. -/
def acceptNew (s : State) (p : Nat) (k : Pkt) : State :=
  let s := putSeq s p ⟨seqKey p k.sender, k.seq, none⟩
  match headCheck s p k with
  | .status st d => deliverReply (keepReply s p (mkReply s k st d)) p (mkReply s k st d)
  | .fine =>
    let n := s.torter.accepts
    showPath (modPath (modTorter s fun t => { t with accepts := n + 1 }) p fun t =>
      { t with current := some k, order := n }) p

/-- One packet taken from a path (R394, R395, R472). -/
def takePkt (s : State) (p : Nat) : State :=
  match (getPath s p).accepted with
  | [] => s
  | k :: rest =>
    let s := modPath s p fun t => { t with accepted := rest }
    let v := versions s
    if k.version.toNat < v.1 || v.2 < k.version.toNat then
      deliverReply s p (mkReply s k scUNSUPPORTED_VERSION [BitVec.ofNat 8 v.1, BitVec.ofNat 8 v.2])
    else match (getPath s p).seqs.find? fun x => x.sender == seqKey p k.sender with
      | none => acceptNew s p k
      | some x =>
        if k.seq = x.seq then
          (match x.reply with
          | some r => deliverReply (putSeq s p x) p { r with sender := k.sender }
          | none => s)
        else if k.seq = x.seq + 1 then acceptNew s p k
        else deliverReply s p (mkReply s k scSEQUENCE_ERROR [])

/-- Packets that are ready taken in the order of a rotating arbiter over the path numbers (R25, R396); `fuel` bounds them. -/
def takeReady : Nat → State → State
  | 0, s => s
  | fuel + 1, s =>
    match rotFirst 18 s.torter.pathPtr (pathReady s) with
    | none => s
    | some p => takeReady fuel (takePkt (modTorter s fun t => { t with pathPtr := (p + 1) % 18 }) p)

/-- Packets on all paths that have not been taken. -/
def waitingPkts (s : State) : Nat := (List.range 18).foldl (fun n p => n + (getPath s p).accepted.length) 0

/-- The paths move on. -/
def pumpPaths (s : State) : State := takeReady (waitingPkts s) s

/-- A command's reply (R396): it is kept for its sequence state and delivered; its path does not move on yet. -/
def giveAnswer (s : State) (p : Nat) (st : Nat) (data : List Byte) : State :=
  match (getPath s p).current with
  | none => s
  | some k =>
    let r := mkReply s k st data
    deliverReply (modPath (keepReply s p r) p fun t => { t with current := none }) p r

/-- A command's reply, after which the paths move on (R396). -/
def answer (s : State) (p : Nat) (st : Nat) (data : List Byte) : State := pumpPaths (giveAnswer s p st data)

/-- What a command comes to: it still executes, or it replies with a status and data. -/
abbrev Ans := Option (Nat × List Byte)

/-- Commands that a held stall accepts (R397): queries, and these. -/
def heldAccepts (k : Pkt) (last : Option Nat) : Bool :=
  let op := k.opcode.toNat
  if op = 0x0301 then last == some (leAt k.params 0 8)
  else opKind op != some .stall || [0x0405, 0x0403, 0x0400, 0x0402, 0x0202, 0x0105, 0x0101].contains op
    || (op == 0x0300 && k.flags.getLsbD 1)

/-- Whether a STEP_END waits for a step that a held stall replays. -/
def replayEnd (x : StallSt) (k : Pkt) : Bool :=
  k.opcode == 0x0301 && x.replaying && x.openStep == some (leAt k.params 0 8)

/-- Points 6 and 7 of R472 at the time a command executes. -/
def stallCheck (s : State) (k : Pkt) : Option Nat :=
  let op := k.opcode.toNat
  if !namesStall op && (op != 0x0404 || k.stall = 0xFFFF) then none
  else match getStall s k.stall.toNat with
    | none => if op ≠ 0x0100 then some scNO_STALL else if k.stall.toNat < 256 then none else some scINVALID_PARAM
    | some x => if x.mode = .held && !heldAccepts k x.last && !replayEnd x k then some scSTALL_HELD else none

/-- The path whose command is in progress among those that this one is serialised with (R396). -/
def serialPath (s : State) (k : Pkt) : Option (Fin 18) :=
  match opKind k.opcode.toNat with
  | some .stall => (getStall s k.stall.toNat).bind (·.busy)
  | some .module => s.torter.modBusy
  | _ => none

/-- The command in progress recorded (R396). -/
def setSerial (s : State) (k : Pkt) (p : Option (Fin 18)) : State :=
  match opKind k.opcode.toNat with
  | some .stall =>
    match getStall s k.stall.toNat with
    | some x => setStall s k.stall.toNat (some { x with busy := p })
    | none => s
  | some .module => modTorter s fun t => { t with modBusy := p }
  | _ => s

/-- Whether two commands are performed one at a time (R396): stall commands of one stall, or module commands. -/
def sameClass (k k' : Pkt) : Bool :=
  match opKind k.opcode.toNat, opKind k'.opcode.toNat with
  | some .stall, some .stall => k.stall == k'.stall
  | some .module, some .module => true
  | _, _ => false

/-- Whether another path has a command that was accepted before this path's and of which `f` holds. -/
def acceptedBefore (s : State) (p : Nat) (f : Pkt → Bool) : Bool :=
  (List.range 18).any fun q =>
    q != p && decide ((getPath s q).order < (getPath s p).order) && (getPath s q).current.any f

/-- Opcodes that read or write the window, besides the commands that are serialised with WINDOW_MAP (R385). -/
def usesWindow (op : Nat) : Bool := [0x0102, 0x0201, 0x0202, 0x0203, 0x0300, 0x0400, 0x0403, 0x0405].contains op

/-- Whether a WINDOW_MAP is executing (R385). -/
def mapWaits (s : State) : Bool :=
  match s.torter.modBusy with
  | some q => (getPath s q.val).current.any fun k => k.opcode == 0x0200
  | none => false

/-- Whether a serialised predecessor holds a command back, in order of acceptance (R396), or a WINDOW_MAP that it must not
meet (R385).  STALL_HOLD goes ahead of all but a STALL_RELEASE accepted before it (R397, R398). -/
def heldBack (s : State) (p : Fin 18) (k : Pkt) : Bool :=
  if k.opcode = 0x0104 then acceptedBefore s p.val fun k' => k'.opcode == 0x0105 && k'.stall == k.stall
  else match serialPath s k with
    | some q => q != p
    | none => acceptedBefore s p.val (sameClass k) || (usesWindow k.opcode.toNat && mapWaits s)

/-- A command executed: the packet taken up on path `p` if it carries this opcode. -/
def runCmd (p : Fin 18) (op : Nat) (f : State → Pkt → State × Ans) (s : State) : Out :=
  .next <|
    match (getPath s p.val).current with
    | none => s
    | some k =>
      if k.opcode.toNat ≠ op || heldBack s p k then s
      else match stallCheck s k with
        | some st => answer s p.val st []
        | none =>
          match f s k with
          | (s, none) => setSerial s k (some p)
          | (s, some (st, data)) => answer (setSerial s k none) p.val st data

/-! The attachment: its cache, its decoder and its interrupts (R379, R382). -/

/-- The attachment changed. -/
def modAttach (s : State) (f : Attach → Attach) : State := { s with attach := f s.attach }

/-- The vector of a queue's completion ring fires (R379, R391). -/
def vectorFires (s : State) (q : Nat) : Emission :=
  let v := rf s (queueBlk q) Q_CFG_VEC
  .interrupt v (tget 0 s.attach.msix (2 * v)) (tget 0 s.attach.msix (2 * v + 1))

/-- Lines that the device cache holds (R379: 512 KiB). -/
def cacheLimit : Nat := 8192

/-- What leaves the cache with a list of lines: those that were written are written back. -/
def writeBacks (l : List CacheLine) : List Emission :=
  (l.filter (·.dirty)).map fun c => .writeBack c.queue c.completion c.slot c.bytes

/-- A line read or written (R379): it stands newest, and the oldest leaves a cache that is full (log 154). -/
def cachePut (s : State) (c : CacheLine) : State :=
  let l := (s.attach.cache.filter fun x => !(x.queue == c.queue && x.completion == c.completion && x.slot == c.slot)) ++ [c]
  let out := l.take (l.length - cacheLimit)
  modAttach { s with outbox := s.outbox ++ writeBacks out } fun a => { a with cache := l.drop (l.length - cacheLimit) }

/-- Slots of a ring read or written from slot `i` on, of `n` in the ring. -/
def cacheSlots (s : State) (q : Nat) (completion : Bool) (n i : Nat) (bs : List Byte) : State :=
  (List.range (ceilDiv bs.length 64)).foldl
    (fun s k => cachePut s ⟨q, completion, (i + k) % n, slice bs (64 * k) 64, completion⟩) s

/-- The cache written back and invalidated (R382). -/
def cacheFlush (s : State) : State :=
  modAttach { s with outbox := s.outbox ++ writeBacks s.attach.cache } fun a => { a with cache := [] }

/-- The cache discarded (R382). -/
def cacheDrop (s : State) : State := modAttach s fun a => { a with cache := [] }

/-- The HDM decoder uncommitted (R382). -/
def hdmUncommit (s : State) : State := modAttach s fun a => { a with hdmCommitted := false }

/-! Rings (R386-R391). -/

/-- A queue stops on an error (R390). -/
def queueError (s : State) (q code : Nat) : State :=
  let s := wf (setBit s (queueBlk q) Q_STATUS_ERR) (queueBlk q) Q_STATUS_ERRCODE code
  postEvent s 0x07F2 [BitVec.ofNat 8 q, BitVec.ofNat 8 code]

/-- Packets read from the published slots (R388); `fuel` bounds them. -/
def readPackets : Nat → State → Nat → List Byte → State
  | 0, s, _, _ => s
  | fuel + 1, s, q, b =>
    if b = [] then s
    else
      let n := ceilDiv (32 + leAt b 8 4) 64
      if b.length < 64 * n then queueError s q 1
      else
        let k := packetOf 0 (b.take (32 + leAt b 8 4))
        let slots := 2 ^ rf s (queueBlk q) Q_CFG_CMDLOG2
        let s := wf s (queueBlk q) Q_CMDHEAD_HEAD ((rf s (queueBlk q) Q_CMDHEAD_HEAD + n) % slots)
        readPackets fuel (modPath s q fun t => { t with accepted := t.accepted ++ [k] }) q (b.drop (64 * n))

/-- DOORBELL (R388, R390): Q_CMDTAIL is written and the packets published are read. -/
def execDoorbell (q : Fin 16) (tail : Word) (ring : List Byte) (bad : Bool) (s : State) : Out :=
  let n := q.val
  let b := queueBlk n
  let t := fget tail Q_CMDTAIL_TAIL
  let slots := 2 ^ rf s b Q_CFG_CMDLOG2
  .next <|
    if !queueOn s n then s
    else if slots ≤ t then (if rfb s b Q_STATUS_ERR then s else queueError s n 3)
    else
      let s := wf s b Q_CMDTAIL_TAIL t
      if rfb s b Q_STATUS_ERR || rfb s bar0Blk MCI_STATUS_FATAL then s
      else
        let k := (t + slots - rf s b Q_CMDHEAD_HEAD) % slots
        if k = 0 then s
        else if bad then queueError s n 2
        else
          let s := cacheSlots s n false slots (rf s b Q_CMDHEAD_HEAD) (slice ring 0 (64 * k))
          pumpPaths (readPackets (k + 1) s n (slice ring 0 (64 * k)))

/-- ENABLE set (R390): sizes and bases are checked; indices, PHASE and the sequence state start afresh. -/
def queueEnable (s : State) (q : Nat) : State :=
  let b := queueBlk q
  let ok (v : Nat) : Bool := decide (7 ≤ v) && decide (v ≤ 12)
  if queueOn s q then s
  else if !(ok (rf s b Q_CFG_CPLLOG2) && (q == 16 || ok (rf s b Q_CFG_CMDLOG2)) && rf s b Q_CPLBASE_ADDR != 0
      && (q == 16 || rf s b Q_CMDBASE_ADDR != 0)) then queueError s q 4
  else
    let s := clearRegs (setBit s b Q_CFG_ENABLE) b [0x18, 0x20, 0x28]
    let s := setReg s (b + 0x30) (fset (fset (fset (regWord s (b + 0x30)) Q_STATUS_ERR 0) Q_STATUS_ERRCODE 0)
      Q_STATUS_CPLFULL 0)
    let s := modRing s q fun r => { RingSt.reset with discard := r.discard }
    if q = 16 then modTorter s fun t => { t with eventSerial := 0 }
    else modPath s q fun t => { t with seqs := [] }

/-- ENABLE cleared (R390): a command that executes completes and its reply is discarded; packets that wait, and a reply that
waits for room, are dropped. -/
def queueDisable (s : State) (q : Nat) : State :=
  let s := wf s (queueBlk q) Q_CFG_ENABLE 0
  if q = 16 then s
  else
    let busy := (getPath s q).current.isSome
    let s := modPath s q fun t => { t with accepted := [], replies := [] }
    showQueue (modRing s q fun r => { r with discard := r.discard || busy }) q

/-- QUEUE_ENABLE (R390). -/
def execQueueEnable (q : Fin 17) (s : State) : Out := .next (queueEnable s q.val)

/-- QUEUE_DISABLE (R390). -/
def execQueueDisable (q : Fin 17) (s : State) : Out := .next (queueDisable s q.val)

/-- Entries written to a completion ring (R389): where the entry starts, its PHASE, and the ring after it. -/
def ringAdvance (s : State) (q n : Nat) : State :=
  let slots := cplSlots s q
  modRing s q fun r =>
    { r with cplTail := (r.cplTail + n) % slots, phase := if slots ≤ r.cplTail + n then !r.phase else r.phase }

/-- An entry counts towards the interrupt (R391): vector VEC fires with the COUNT-th. -/
def countEntry (s : State) (q : Nat) : State :=
  let c := rf s (queueBlk q) Q_COAL_COUNT
  let n := (getRing s q).coal + 1
  if c = 0 then s
  else if c ≤ n then emit (modRing s q fun r => { r with coal := 0 }) (vectorFires s q)
  else modRing s q fun r => { r with coal := n }

/-- COAL_TIMER (R391): US microseconds after the first entry. -/
def execCoalTimer (q : Fin 17) (s : State) : Out :=
  let n := q.val
  .next <|
    if (getRing s n).coal = 0 || rf s (queueBlk n) Q_COAL_US = 0 || rf s (queueBlk n) Q_COAL_COUNT = 0 then s
    else emit (modRing s n fun r => { r with coal := 0 }) (vectorFires s n)

/-- The entry of an event (R391, R393). -/
def eventReply (s : State) (e : Event) : Reply :=
  { version := BitVec.ofNat 8 (versions s).2, status := 0, tag := 0, stall := 0xFFFF, warn := 0
    seq := BitVec.ofNat 64 s.torter.eventSerial, opcode := e.opcode, quiet := false, data := e.data, sender := 0 }

/-- One OVERFLOW entry reports the events dropped, once there is room (R391). -/
def reportDrops (s : State) : State :=
  let t := s.torter
  let l := t.events ++ [⟨0x07F3, leBytes 4 t.droppedFault ++ leBytes 4 t.droppedOther⟩]
  if (t.droppedFault = 0 && t.droppedOther = 0) || 256 < heldEvents (eventRoom s) l then s
  else modTorter s fun t => { t with droppedFault := 0, droppedOther := 0, events := l }

/-- An event written to the event ring. -/
def writeEvent (s : State) : State :=
  match s.torter.events with
  | [] => s
  | e :: rest =>
    let r := eventReply s e
    if !queueOn s 16 || rfb s (queueBlk 16) Q_STATUS_ERR || rfb s bar0Blk MCI_STATUS_FATAL then s
    else if cplRoom s 16 < replySlots r then setBit s (queueBlk 16) Q_STATUS_CPLFULL
    else
      let x := getRing s 16
      let s := emit s (.ring 16 x.cplTail (replyBytes r x.phase))
      let s := cacheSlots s 16 true (cplSlots s 16) x.cplTail (replyBytes r x.phase)
      let s := modTorter s fun t => { t with events := rest, eventSerial := t.eventSerial + 1 }
      reportDrops (countEntry (ringAdvance (wf s (queueBlk 16) Q_STATUS_CPLFULL 0) 16 (replySlots r)) 16)

/-- A reply written to a completion ring, if it fits (R389, R390). -/
def writeReply (s : State) (q : Nat) : State :=
  match (getPath s q).replies with
  | [] => s
  | r :: rest =>
    if cplRoom s q < replySlots r then showQueue s q
    else
      let x := getRing s q
      let s := emit s (.ring q x.cplTail (replyBytes r x.phase))
      let s := cacheSlots s q true (cplSlots s q) x.cplTail (replyBytes r x.phase)
      let s := ringAdvance (modPath s q fun t => { t with replies := rest }) q (replySlots r)
      let s := if r.quiet then s else countEntry s q
      pumpPaths (showQueue s q)

/-- COMPLETION_WRITE (R389, R391). -/
def execCompletionWrite (q : Fin 17) (s : State) : Out :=
  .next (if q.val = 16 then writeEvent s else writeReply s q.val)

/-- Q_CPLHEAD written (R389, R390). -/
def cplRelease (s : State) (q : Nat) (head : Word) : State :=
  let h := fget head Q_CPLHEAD_HEAD
  if cplSlots s q ≤ h then queueError s q 3
  else
    let s := wf s (queueBlk q) Q_CPLHEAD_HEAD h
    if q = 16 then reportDrops (wf s (queueBlk 16) Q_STATUS_CPLFULL 0) else showQueue s q

/-- COMPLETION_RELEASE (R389). -/
def execCompletionRelease (q : Fin 17) (head : Word) (s : State) : Out := .next (cplRelease s q.val head)

/-! Resets of the attachment (R382). -/

/-- Queues disabled with indices 0. -/
def attachReset (s : State) : State :=
  (List.range 17).foldl (fun s q =>
    let s := clearRegs (queueDisable s q) (queueBlk q) [0x18, 0x20, 0x28]
    modRing s q fun r => { RingSt.reset with discard := r.discard }) s

/-- FUNCTION_LEVEL_RESET (R382). -/
def execFunctionLevelReset (s : State) : Out := .next (attachReset (cacheFlush s))

/-- HOT_RESET (R382, R462). -/
def execHotReset (s : State) : Out := .next (attachReset (hdmUncommit (cacheFlush s)))

/-- CXL_RESET (R382). -/
def execCxlReset (s : State) : Out := .next (attachReset (hdmUncommit (cacheFlush s)))

/-- CXL_LINK_DOWN (R382): what the cache holds is lost. -/
def execCxlLinkDown (s : State) : Out := .next (attachReset (hdmUncommit (cacheDrop s)))

/-! The out-of-band paths (R408, R409, R465). -/

/-- Whether a controller serves the out-of-band paths: Torter from B4 on (R441), the security controller in recovery. -/
def served (s : State) : Bool := s.secure.recovery || decide (4 ≤ s.secure.stage)

/-- A packet accepted on a path. -/
def acceptPkt (s : State) (p : Nat) (k : Pkt) : State :=
  pumpPaths (modPath s p fun t => { t with accepted := t.accepted ++ [k] })

/-- MGMT_DATAGRAM (R408): a payload of up to 4,128 bytes that holds a header. -/
def execMgmtDatagram (sender : Nat) (pkt : List Byte) (s : State) : Out :=
  .next (if !served s || pkt.length < 32 || 4128 < pkt.length then s else acceptPkt s 16 (packetOf sender pkt))

/-- Whether the I3C path takes a command write: none executes and no reply waits to be read (R465). -/
def i3cFree (s : State) : Bool :=
  let t := getPath s 17
  served s && t.current.isNone && t.accepted == [] && t.replies == []

/-- I3C_PRIVATE_WRITE (R465). -/
def execI3cPrivateWrite (bytes : List Byte) (s : State) : Out :=
  .next (if !i3cFree s || bytes.headD 0 != 1 || bytes.length < 33 then emit s .nack
    else acceptPkt s 17 (packetOf 0 (bytes.drop 1)))

/-- The status byte (R465). -/
def statusByte (s : State) : Byte :=
  BitVec.ofNat 8 (rf s bar0Blk MCI_STATUS_READY + 2 * rf s bar0Blk MCI_STATUS_FATAL + 4 * s.secure.resetCause.toNat)

/-- The reply on the I3C path has been read. -/
def replyRead (s : State) : State :=
  pumpPaths (modTorter (modPath s 17 fun t => { t with replies := t.replies.tail }) fun t => { t with smbusOut := 0 })

/-- I3C_PRIVATE_READ (R465). -/
def execI3cPrivateRead (len : Nat) (s : State) : Out :=
  .next <|
    match (getPath s 17).replies with
    | [] => emit s (.i3c [if len = 1 then statusByte s else 0])
    | r :: _ => replyRead (emit s (.i3c ((1 :: replyBytes r false).take len)))

/-- SMBUS_BLOCK_WRITE (R465): 0x40 for every chunk but the last, 0x41 for the last. -/
def execSmbusBlockWrite (code : Byte) (bytes : List Byte) (s : State) : Out :=
  .next <|
    if !i3cFree s || 32 < bytes.length || (code != 0x40 && code != 0x41) then emit s .nack
    else
      let all := s.torter.smbusIn ++ bytes
      if code = 0x40 then modTorter s fun t => { t with smbusIn := all }
      else
        let s := modTorter s fun t => { t with smbusIn := [] }
        if all.length < 32 then emit s .nack else acceptPkt s 17 (packetOf 1 all)

/-- SMBUS_BLOCK_READ (R465): the next 1 to 32 bytes of the reply, or a count of 0. -/
def execSmbusBlockRead (s : State) : Out :=
  .next <|
    match (getPath s 17).replies with
    | [] => emit s (.i3c [0])
    | r :: _ =>
      let b := replyBytes r false
      let n := min 32 (b.length - s.torter.smbusOut)
      let s := emit s (.i3c (BitVec.ofNat 8 n :: slice b s.torter.smbusOut n))
      if b.length ≤ s.torter.smbusOut + n then replyRead s
      else modTorter s fun t => { t with smbusOut := t.smbusOut + n }

/-- DYNAMIC_ADDRESS_ASSIGNMENT (R465: SETDASA, ENTDAA). -/
def execDynamicAddressAssignment (addr : BitVec 7) (s : State) : Out :=
  .next (modTorter s fun t => { t with i3cAddr := some addr })

end Sys2Proof.Machine
end

