-- ==== Sys2Proof/Machine/Window.lean ====
section
/-! DEFINITION. The memory window's commands (R383-R385) and those that need only the window: WINDOW_MAP, DATA_COPY, PROG_LOAD, EXCH_SET (R399, R403, R301). -/

namespace Sys2Proof.Machine

/-! The window. -/

/-- WINDOW_READ (R383, R384, R420). -/
def execWindowRead (off len : Nat) (ecc : Ecc) (s : State) : Out := .next (winReadArrives s off len ecc)

/-- WINDOW_WRITE (R383, R420). -/
def execWindowWrite (off : Nat) (data : List Byte) (s : State) : Out := .next (winWriteArrives s off data)

/-- Whether an entry of the window map keeps its limits, valid or not (R383). -/
def winEntryOk (s : State) (w : Word) : Bool :=
  let e := w.toNat
  bits e 62 55 == 0 && bits e 29 0 == 0 && decide (bits e 54 49 < ndie s) && decide (bits e 48 30 ≤ 287)

/-- Whether no two valid entries name the same die and BASE. -/
def distinctEntries : List Word → Bool
  | [] => true
  | w :: rest => (w.toNat < 2 ^ 63 || !rest.contains w) && distinctEntries rest

/-- Whether a command that reads or writes the window is executing (R385): a stall command that has not replied, a fill, or the
close of a step. -/
def windowBusy (s : State) : Bool :=
  s.torter.fill.isSome || (stalls s).any fun x => x.2.busy.isSome || x.2.closing.isSome

/-- WINDOW_MAP (R383, R385, R446). -/
def execWindowMap (p : Fin 18) : State → Out :=
  runCmd p 0x0200 fun s k =>
    let es := leWords k.params
    if !es.all (winEntryOk s) || !distinctEntries es then (s, some (scINVALID_PARAM, []))
    else if windowBusy s then (s, none)
    else
      let s := modTorter s fun t => { t with window := (List.range 256).map fun i => (i, wd es i) }
      (extendMr s 5 0x20 k.params, some (scOK, []))

/-! Copies for a stall (R403). -/

/-- The stall that a packet names. -/
def namedStall (s : State) (k : Pkt) : Option StallSt := getStall s k.stall.toNat

/-- A range of addresses on dies of a stall on this module, in memory that exists (R175, R403). -/
inductive Area where
  /-- outside the dies of the stall on the module -/
  | outside
  /-- spans homes, or is not backed, or is no memory -/
  | unbacked
  | at (d l : Nat)
  deriving DecidableEq, Repr

/-- Where a range of a stall lies. -/
def stallArea (s : State) (x : StallSt) (a : Word) (len : Nat) : Area :=
  let d := addrDie a
  let l := addrLocal a
  if !isOwn s (addrMod a) || !dieOk s d || !x.dies.getLsbD d then .outside
  else match homeOf l, firstBad l len with
    | some (.reg _), _ => .unbacked
    | _, some _ => .unbacked
    | _, none => .at d l

/-- DATA_COPY (R399, R403). -/
def execDataCopy (p : Fin 18) : State → Out :=
  runCmd p 0x0202 fun s k =>
    let b := k.params
    let off := leAt b 8 8
    let n := leAt b 24 8
    match namedStall s k, winRange s off n with
    | some x, some ps =>
      if off % 4096 ≠ 0 then (s, some (scINVALID_PARAM, []))
      else match stallArea s x (leWord (slice b 16 8)) n with
        | .outside => (s, some (scSTALL_FENCE, []))
        | .unbacked => (s, some (scINVALID_PARAM, []))
        | .at d l =>
          (if leAt b 0 8 = 0 then copyAll s ps [(d, l, n)] else copyAll s [(d, l, n)] ps, some (scOK, []))
    | _, _ => (s, some (scINVALID_PARAM, []))

/-- PROG_LOAD (R399, R403, R446): one image into every core selected on every die selected, and CORE_PC at COFF.  These
cores are the step's programs (R270; log 32). -/
def execProgLoad (p : Fin 18) : State → Out :=
  runCmd p 0x0201 fun s k =>
    let b := k.params
    let off := leAt b 0 8
    let n := leAt b 8 4
    let coff := leAt b 12 4
    let dies := leAt b 16 8
    let cores := (List.range 256).filter fun c => bits (leAt b 24 32) c c == 1
    match namedStall s k with
    | none => (s, some (scNO_STALL, []))
    | some x =>
      if !woffOk s off n || coff % 16 ≠ 0 || 0x180000 < coff + n then (s, some (scINVALID_PARAM, []))
      else if (List.range 36).any fun d => bits dies d d == 1 && !x.dies.getLsbD d then (s, some (scSTALL_FENCE, []))
      else if x.openStep.isSome then (s, some (scSTEP_BUSY, []))
      else match winRead s off n with
        | (_, none) => (s, some (scINVALID_PARAM, []))
        | (s, some img) =>
          let ds := (List.range (ndie s)).filter fun d => bits dies d d == 1
          let s := ds.foldl (fun s d =>
            let s := cores.foldl (fun s c =>
              wf (poke s d (coreMemBase + c * 0x200000 + coff) img) (coreBlk d c) CORE_PC_PC (coff / 16)) s
            modDie s d fun y =>
              let sel := (List.finRange 256).filter fun c => y.loaded.contains c || cores.contains c.val
              { y with loaded := sel }) s
          (extendMr s 3 0x10 (img ++ slice b 12 4 ++ slice b 16 8 ++ slice b 24 32), some (scOK, []))

/-- The MR4 extension of a command that reads window bytes (R446). -/
def extendConfig (s : State) (tag : Nat) (params win : List Byte) : State := extendMr s 4 tag (params ++ win)

/-- Whether an exchange table's bytes keep their limits (R301). -/
def exchOk (b : List Byte) : Bool :=
  let n := leAt b 4 4
  leAt b 0 1 == 1 && zeroBytes b 1 3 && zeroBytes b 8 63 && decide (n ≤ 65535) && decide (64 + 64 * n ≤ b.length) &&
    (List.range n).all fun i =>
      let o := 64 + 64 * i
      decide (1 ≤ leAt b (o + 4) 2) && decide (leAt b (o + 4) 2 ≤ 18432) && zeroBytes b (o + 7) (o + 7)
        && leAt b (o + 12) 4 % 64 == 0 && leAt b (o + 16) 8 % 4096 == 0 && zeroBytes b (o + 40) (o + 63)

/-- EXCH_SET (R301, R403): the table goes to DEST on DIE and RED_TABLE names it. -/
def execExchSet (p : Fin 18) : State → Out :=
  runCmd p 0x0204 fun s k =>
    let b := k.params
    let d := leAt b 0 1
    let off := leAt b 8 8
    let dest := leAt b 16 8
    let n := leAt b 24 4
    match namedStall s k with
    | none => (s, some (scNO_STALL, []))
    | some x =>
      if !woffOk s off n then (s, some (scINVALID_PARAM, []))
      else if !dieOk s d || !x.dies.getLsbD d then (s, some (scSTALL_FENCE, []))
      else if x.openStep.isSome then (s, some (scSTEP_BUSY, []))
      else match homeOf dest, firstBad dest n, winRead s off n with
        | some .hbm, none, (s', some tbl) =>
          if !exchOk tbl || dest % 64 ≠ 0 then (s, some (scINVALID_PARAM, []))
          else
            let s := setReg (poke s' d dest tbl) (redBlk d + 0x10) (globalAddr s' d dest)
            (extendConfig s 0x13 b tbl, some (scOK, []))
        | _, _, _ => (s, some (scINVALID_PARAM, []))

end Sys2Proof.Machine
end

