-- ==== Sys2Proof/Machine/Queries.lean ====
section
/-! DEFINITION. Queries and module commands (R399-R401): DISCOVER, ECHO, STALL_QUERY, the power commands (R432, R433),
FEED_SET, quotes and certificates (R437, R448), faults, telemetry and counters (R342, R434), and the links' commands (R317,
R329). -/

namespace Sys2Proof.Machine

/-- DISCOVER's data (R401); in recovery a field that boot had not established reads 0 (R442). -/
def discoverBytes (s : State) : List Byte :=
  let st := if s.secure.recovery then s.secure.stage else 7
  let v := s.secure.variant
  let b := runningBank s
  let known (k : Nat) (bs : List Byte) : List Byte := if k ≤ st then bs else bs.map fun _ => 0
  known 2 [v.part, BitVec.ofNat 8 v.ndie] ++ known 3 [b.vmin, b.vmax, b.lvmin, b.lvmax] ++ known 2 [v.algrev] ++ [0]
    ++ known 3 (leBytes 2 b.fwrev.toNat) ++ leBytes 2 s.torter.feed.toNat
    ++ leBytes 2 (lmod s 0 + 32768 * b2n (noLmod s 0)) ++ [0, 0] ++ known 1 (leBytes 8 s.secure.physid.toNat)
    ++ known 2 (leBytes 8 (b2n v.gcmp + 2 * b2n v.plu))
    ++ (if 2 ≤ st then ((List.range v.ndie).map fun d => known 6 (leBytes 8 (regRead s (dieBlk d + 8)).toNat)).flatten
        else [])

/-- DISCOVER (R401). -/
def execDiscover (p : Fin 18) : State → Out := runCmd p 0x0000 fun s _ => (s, some (scOK, discoverBytes s))

/-- ECHO (R399). -/
def execEcho (p : Fin 18) : State → Out := runCmd p 0x0001 fun s k => (s, some (scOK, k.params))

/-- Members of a bit set among `n`. -/
def popcount (n : Nat) (has : Nat → Bool) : Nat := ((List.range n).filter has).length

/-- Whether a logical module belongs to a stall (R402). -/
def hasMod (x : StallSt) (m : Nat) : Bool := (wd x.mods (m / 64)).getLsbD (m % 64)

/-- Dies of a stall on each module. -/
def stallNdie (x : StallSt) : Nat := popcount 36 x.dies.getLsbD

/-- Ranks of a stall (R403). -/
def stallRanks (x : StallSt) : Nat := popcount 512 (hasMod x) * stallNdie x

/-- STALL_QUERY's state (R399). -/
def stallStateCode (x : StallSt) : Nat :=
  match x.mode with
  | .formed => 0
  | .job => 1
  | .stepOpen => 2
  | .held => 3

/-- STALL_QUERY (R399). -/
def execStallQuery (p : Fin 18) : State → Out :=
  runCmd p 0x0106 fun s k =>
    match namedStall s k with
    | none => (s, some (scNO_STALL, []))
    | some x =>
      (s, some (scOK, leBytes 8 (stallStateCode x) ++ leBytes 8 (x.last.getD 0) ++ leBytes 8 (x.openStep.getD 0)
        ++ leBytes 8 (stallRanks x)))

/-! Power (R421, R432-R434). -/

/-- The dies of a mask that the part has. -/
def maskDies (s : State) (m : Nat) : List Nat := (List.range (ndie s)).filter fun d => bits m d d == 1

/-- Whether PWR_SET may switch a domain (R432): a link pair whose links are both disabled, or 95. -/
def domSwitchable (s : State) (k : Nat) : Bool :=
  k == 95 || (decide (72 ≤ k) && decide (k ≤ 89) && domExists s k
    && !rfb s (linkBlk (2 * (k - 72))) LK_CTRL_ENABLE && !rfb s (linkBlk (2 * (k - 72) + 1)) LK_CTRL_ENABLE)

/-- Whether the save area lies in backed HBM of the dies named (R429). -/
def saveAreaOk (s : State) (base : Nat) (ds : List Nat) : Bool :=
  base % 2 ^ 30 == 0 && decide (base + 2 ^ 30 ≤ 0x4800000000) && ds.all fun d => rf s (dieBlk d) DIE_CAP_HBMOK == 15

/-- PWR_SET (R421, R425, R432). -/
def execPwrSet (p : Fin 18) : State → Out :=
  runCmd p 0x0500 fun s k =>
    let b := k.params
    let m := leAt b 0 8
    let ds := maskDies s m
    let f := leAt b 8 1
    let st := bits f 2 0
    let setSt := bits f 3 3 == 1
    let step := bits f 6 4
    let setStep := bits f 7 7 == 1
    let dom := leAt b 9 1
    let base := leAt b 16 8
    let deep := setSt && (st == 4 || st == 5)
    if m / 2 ^ ndie s ≠ 0 || (setSt && 6 ≤ st) || (setStep && 6 ≤ step)
        || (dom ≠ 0xFF && !domSwitchable s dom)
        || (setSt && st = 4 && !saveAreaOk s base ds)
        || (deep && ds.length ≠ ndie s) then (s, some (scINVALID_PARAM, []))
    else if deep && st = 4 && (stalls s).any fun x => x.2.openStep.isSome || x.2.mode == .held then
      (s, some (scSTALL_BUSY, []))
    else if deep && st = 5 && !(stalls s).isEmpty then (s, some (scSTALL_BUSY, []))
    else if (setSt && ds.any fun d => 4 ≤ (getPow s d).waiting.length)
        || (dom ≠ 0xFF && 4 ≤ (tget [] s.supply.domWaiting dom).length) then (s, none)
    else
      let s := ds.foldl (fun s d =>
        let a := pwrBlk d + 8
        let s := setReg s a (fset (regWord s a) ⟨8, 1, 4⟩ (leAt b 11 1))
        let s := if setSt && st = 4 then modPow s d fun x => { x with saveBase := base } else s
        let s := if setStep then wf s (pwrBlk d) DVFS_CTRL_REQ step else s
        if setSt then requestState s d st else s) s
      let s := if !setStep then s
        else modSupply s fun x =>
          let add := ((List.finRange 36).filter fun d => ds.contains d.val).map fun d => (d, BitVec.ofNat 3 step)
          { x with modReqs := x.modReqs ++ add }
      (if dom = 0xFF then s else requestDomain s dom (bits (leAt b 10 1) 0 0 == 1), some (scOK, []))

/-- Whether a domain is powered (R30, R433): a die's compute domain while VCORE is not off, its memory side while the HBM
rails are up, both once B6 has brought up the die's rails (R460); the always-on domain and the power sequencer from the
second stage of power-up, the module's others from the third, unless switched off. -/
def domPowered (s : State) (k : Nat) : Bool :=
  domExists s k &&
    (if k < 36 then decide (6 ≤ s.secure.stage) && (getPow s k).vcore != .off
     else if k < 72 then decide (6 ≤ s.secure.stage) && (getPow s (k - 36)).hbm != .off
     else decide ((if k = 90 || k = 97 then 2 else 3) ≤ s.supply.rails) && !s.supply.domOff.contains k)

/-- PWR_QUERY (R433). -/
def execPwrQuery (p : Fin 18) : State → Out :=
  runCmd p 0x0501 fun s _ =>
    let ds := ((List.range (ndie s)).map fun d =>
      wordBytes (fset (regRead s (pwrBlk d + 0x18)) PWR_STATUS_STATE (reportedState s d)) ++ wordBytes (regRead s (pwrBlk d + 0x38))).flatten
    let on := (List.range 100).foldl (fun n k => if domPowered s k then n + 2 ^ k else n) 0
    (s, some (scOK, ds ++ leBytes 16 on))

/-- FEED_SET (R363). -/
def execFeedSet (p : Fin 18) : State → Out :=
  runCmd p 0x0502 fun s k =>
    (modTorter s fun t => { t with feed := BitVec.ofNat 16 (leAt k.params 0 2) }, some (scOK, []))

/-- Fastest clock of a domain in kHz where the spec fixes it (R29, R30, R410, R415): 0 without power; the fabric clock of a
die whose PLL runs, which its mesh node keeps (R420); the 100 MHz of the reference and of the power sequencer. -/
def domKhz (s : State) (k : Nat) : Option Nat :=
  if k < 36 then
    (if s.secure.stage < 6 || (getPow s k).hbm = .off then some 0
     else if rfb s (pwrBlk k) PWR_STATUS_PLL_LOCK then some 1200000 else none)
  else if !domPowered s k then some 0
  else if k = 90 || k = 97 then some 100000
  else none

/-- One telemetry record (R434); what sensors find is free (log 12), the coolant's temperatures stand in the state
(R468). -/
def telemRecord (s : State) (k : Nat) : List Byte :=
  let sens (f : Nat) : Nat := (Config.sensor k f s.fresh).toNat
  let st := if k < 36 then reportedState s k else b2n (domPowered s k)
  let temp (v : Int) : List Byte := leBytes 2 (BitVec.ofInt 16 v).toNat
  [BitVec.ofNat 8 k, BitVec.ofNat 8 st] ++ leBytes 2 (sens 0)
    ++ (if k = 94 then temp s.supply.outlet ++ temp s.supply.inlet else leBytes 2 (sens 1) ++ leBytes 2 0x8000)
    ++ leBytes 4 (sens 2) ++ leBytes 4 ((domKhz s k).getD (sens 3)) ++ leBytes 8 (sens 4) ++ leBytes 4 s.supply.ns.toNat
    ++ leBytes 4 s.supply.pulse.toNat

/-- TELEM_READ (R30, R399, R434). -/
def execTelemRead (p : Fin 18) : State → Out :=
  runCmd p 0x0701 fun s k =>
    let m := leAt k.params 0 16
    if (List.range 128).any fun i => bits m i i == 1 && !domExists s i then (s, some (scINVALID_PARAM, []))
    else
      let s := tickNs s
      (s,
        some (scOK, (((List.range 100).filter fun i => bits m i i == 1).map (telemRecord s)).flatten))

/-- COUNTER_READ (R399). -/
def execCounterRead (p : Fin 18) : State → Out :=
  runCmd p 0x0702 fun s k =>
    let a := leWord (slice k.params 0 8)
    let n := leAt k.params 8 4
    let d := addrDie a
    let l := addrLocal a
    let ok := addrMod a == lmod s 0 && dieOk s d && l % 8 == 0 && decide (1 ≤ n) && decide (n ≤ 512) &&
      (List.range n).all fun i => match homeOf (l + 8 * i) with
        | some (.reg _) => true
        | _ => false
    if !ok then (s, some (scINVALID_PARAM, []))
    else (s, some (scOK, ((List.range n).map fun i => wordBytes (regRead s (dieAddr d + l + 8 * i))).flatten))

/-! Faults. -/

/-- Whether a count is settled: no increase for 16 flush intervals and 4 ms (R342; log 31). -/
def settled (s : State) (e : CrierEnt) : Bool :=
  decide (16 + ceilDiv 4000 (max 1 (rf s (linkBlk 0) LK_CRIER_FLUSH)) ≤ e.quiet)

/-- FAULT_QUERY (R342); a FID never seen has a record of zeros (log 33). -/
def execFaultQuery (p : Fin 18) : State → Out :=
  runCmd p 0x0700 fun s k =>
    let fid := leWord (slice k.params 0 8)
    match s.torter.notices.find? fun e => e.fid == fid with
    | none => (s, some (scOK, List.replicate 40 0))
    | some e => (s, some (scOK, leBytes 4 e.total ++ leBytes 4 (b2n (settled s e)) ++ noticeBytes e e.total))

/-! Identity. -/

/-- The characters that R448's context string adds. -/
def ctxQuote : List Byte := [0x2D, 0x51, 0x55, 0x4F, 0x54, 0x45]

/-- A quote's bytes before its signature (R448). -/
def quoteBody (s : State) (nonce : List Byte) (mask : Nat) : List Byte :=
  let x := s.secure
  [1, BitVec.ofNat 8 mask,
    BitVec.ofNat 8 (x.running % 2 + 2 * b2n ((getBank s x.running).state == .trial) + 4 * b2n x.logOverflow), 0]
    ++ leBytes 4 x.counter.toNat ++ leBytes 8 x.physid.toNat ++ leBytes 8 x.extCount
    ++ leBytes 2 (runningBank s).fwrev.toNat ++ List.replicate 6 0 ++ nonce
    ++ (((List.range 6).filter fun i => bits mask i i == 1).map fun i => leBytes 64 (x.mrs.getD i 0).toNat).flatten

/-- ATTEST (R448). -/
def execAttest (p : Fin 18) : State → Out :=
  runCmd p 0x0600 fun s k =>
    let mask := leAt k.params 32 1
    if mask = 0 then (s, some (scINVALID_PARAM, []))
    else
      let q := quoteBody s (slice k.params 0 32) mask
      (s, some (scOK, q ++ slice (Config.mlDsaSign s.secure.seed (ctxName ++ ctxQuote) q) 0 3309))

/-- CERT_READ (R437, R447). -/
def execCertRead (p : Fin 18) : State → Out :=
  runCmd p 0x0601 fun s k =>
    let slot := leAt k.params 0 4
    let n := leAt k.params 8 4
    let from' (b : List Byte) : Ans := some (scOK, (b.drop (leAt k.params 4 4)).take n)
    if n = 0 || 4064 < n then (s, some (scINVALID_PARAM, []))
    else if slot = 0 then (s, from' Config.certChain)
    else if slot = 15 then (s, from' (logBytes s))
    else (s, some (scINVALID_PARAM, []))

/-! Links. -/

/-- LINK_QUERY (R329, R344, R399). -/
def execLinkQuery (p : Fin 18) : State → Out :=
  runCmd p 0x0900 fun s k =>
    let d := leAt k.params 0 1
    if !dieOk s d then (s, some (scINVALID_PARAM, []))
    else
      let data := ([0x0, 0x10, 0x18, 0x20, 0x28].map fun o => wordBytes (regRead s (linkBlk d + o))).flatten
      (s, some (if (getLink s d).incompatible then scINCOMPATIBLE_REVISION else scOK, data))

/-- LINK_SERVICE OPEN (R317): lasers off, links in SERVICE, the latch unlocked. -/
def serviceOpen (s : State) (r : Nat) : State :=
  (rowDies r).foldl (fun s d => modLink (setLkState s d 5) d fun l => { l with phase := .idle })
    (modRow s r fun x => { x with service := true, lasersOff := true })

/-- LINK_SERVICE CLOSE (R317, R454): the row's links train. -/
def serviceClose (s : State) (r : Nat) : State :=
  (rowDies r).foldl (fun s d => if lkState s d = 5 then startTrain (setLkState s d 0) d false else s)
    (modRow s r fun x => { x with service := false, lasersOff := false })

/-- LINK_SERVICE (R317, R454). -/
def execLinkService (p : Fin 18) : State → Out :=
  runCmd p 0x0901 fun s k =>
    let r := leAt k.params 0 1
    if nrow s ≤ r then (s, some (scINVALID_PARAM, []))
    else if leAt k.params 1 1 = 0 then (serviceOpen s r, some (scOK, []))
    else if (getRow s r).latchOpen then (s, some (scINVALID_PARAM, []))
    else if !cartridgeOk s r then
      (raiseNotice s (6 * r) 7 (lmod s 0) 0 r 7 3, some (scSIGNATURE_INVALID, []))
    else (serviceClose s r, some (scOK, []))

end Sys2Proof.Machine
end

