-- ==== Sys2Proof/Machine/Stalls.lean ====
section
/-! DEFINITION. Stalls (R402-R404), held and released (R397), the chain table (R252, R253), and the commands that need no
more: STALL_FORM, STALL_DISSOLVE, STALL_RELEASE, CHAIN_SET, STEP_QUERY, SNAP_RELEASE, FILL_QUERY. -/

namespace Sys2Proof.Machine

/-- A stall changed. -/
def modStall (s : State) (g : Nat) (f : StallSt → StallSt) : State :=
  match getStall s g with
  | some x => setStall s g (some (f x))
  | none => s

/-- The stall as STALL_FORM makes it. -/
def StallSt.formed (algrev : Byte) (dies : Word) (mods : List Word) : StallSt :=
  { algrev := algrev, dies := dies, mods := mods, mode := .formed, job := [], period := 0, last := none, openStep := none,
    replaying := false, replayTo := 0, proved := false, openAtHold := false, lastAtHold := none, restored := false,
    restoring := none, serial := 0, tallyPos := 0, records := [], winFailed := [], chain := [], append := none, busy := none,
    closing := none, sharedFeed := false, snaps := [], snapSkipped := false, nonfinite := false, closes := [], enders := [],
    protect := [], methods := [], changed := [], lastAppend := none, spares := [], stallLast := none }

/-- Logical modules of a stall below `m` (R403). -/
def modsBelow (x : StallSt) (m : Nat) : Nat := popcount m (hasMod x)

/-- The lead module: the lowest of the stall (R356, R403). -/
def leadMod (x : StallSt) : Nat := ((List.range 512).find? (hasMod x)).getD 0

/-- Rank of die `d` on logical module `m` (R403). -/
def rankOf (x : StallSt) (m d : Nat) : Nat := modsBelow x m * stallNdie x + popcount d x.dies.getLsbD

/-- Whether a die is free and whole for a stall (R402). -/
def dieFree (s : State) (d : Nat) : Bool :=
  !rfb s (dieBlk d) DIE_STALL_MEMBER && rf s (dieBlk d) DIE_CAP_CLDEG == 0 && rf s (dieBlk d) DIE_CAP_HBMOK == 15
    && rf s (meshBlk d) MESH_STATUS_DOWN == 0

/-- DIE_STALL and the fences of a die of a stall (R199, R403). -/
def joinDie (s : State) (g : Nat) (x : StallSt) (d : Nat) : State :=
  let b := dieBlk d
  let s := wf (wf (wf s b DIE_STALL_STALL g) b DIE_STALL_MEMBER 1) b DIE_STALL_RANK (rankOf x (lmod s 0) d)
  let s := setReg s (b + 0x28) x.dies
  (List.range 8).foldl (fun s j => setReg s (b + 0x30 + 8 * j) (wd x.mods j)) s

/-- DIE_STALL, the fences and DIE_JOBKEY cleared (R404). -/
def leaveDie (s : State) (d : Nat) : State := clearRegs s (dieBlk d) (offsets 0x18 0x68)

/-- The stall that STALL_FORM's parameters name (R402). -/
def stallOfParams (b : List Byte) : StallSt :=
  StallSt.formed (BitVec.ofNat 8 (leAt b 1 1)) (leWord (slice b 8 8)) (leWords (slice b 16 64))

/-- What refuses a stall, in the order of R402's table. -/
def formRefusal (s : State) (g : Nat) (b : List Byte) : Option Nat :=
  let x := stallOfParams b
  let ds := (List.range 36).filter fun d => x.dies.getLsbD d
  let others := (List.range 512).filter fun m => hasMod x m && !isOwn s m
  if leAt b 0 1 ≠ g || ds.isEmpty || !ds.all (dieOk s) || noLmod s 0 || !hasMod x (lmod s 0) then some scINVALID_PARAM
  else if ds.any fun d => others.any fun m => (routeRow s d m).isNone then some scINVALID_PARAM
  else if (getStall s g).isSome then some scSTALL_BUSY
  else if !ds.all (dieFree s) then some scDIE_UNAVAILABLE
  else if x.algrev ≠ s.secure.variant.algrev then some scINCOMPATIBLE_REVISION
  else none

/-- STALL_FORM (R402, R403). -/
def execStallForm (p : Fin 18) : State → Out :=
  runCmd p 0x0100 fun s k =>
    let g := k.stall.toNat
    match formRefusal s g k.params with
    | some st => (s, some (st, []))
    | none =>
      let x := stallOfParams k.params
      let ds := stallDies s x
      let s := setStall (ds.foldl (fun s d => joinDie s g x d) s) g (some x)
      (s, some (scOK, leBytes 4 (stallRanks x) ++ leBytes 4 (rankOf x (lmod s 0) (ds.headD 0)) ++ leBytes 8 (leadMod x)))

/-- Whether nothing of a core's state or of its register slot has been set since reset. -/
def coreFresh (s : State) (d n : Nat) : Bool :=
  (tlookup s.cores (coreKey d n)).isNone
    && !(s.regs.any fun r => decide (coreBlk d n ≤ r.1) && decide (r.1 < coreBlk d n + 0x2000))

/-- Every core of a die reset (R96); one that nothing has touched is at reset already. -/
def resetCores (s : State) (d : Nat) : State :=
  (List.range 256).foldl (fun s n => if coreFresh s d n then s else coreReset s d n) s

/-- Every channel of a die aborted (R218); one that is not listed is idle. -/
def abortChans (s : State) (d : Nat) : State :=
  (s.chans.filter fun p => p.1 / 512 == d).foldl (fun s p => abortWrite s d (p.1 / 32 % 16) (p.1 % 32)) s

/-- What a die loses of a step that ends without closing (R370): cores, channels, and what the reduction unit and the
Steelyard node hold of the step. -/
def stopDie (s : State) (d : Nat) : State :=
  let s := setSty (setRed (abortChans (resetCores s d) d) d RedSt.reset) d StySt.reset
  let s := unitForget (unitForget s d unitRed) d unitSty
  modDie s d fun y => { y with started := [], participants := [], arrived := [], closed := false, failed := false }

/-- Whether an open step keeps a command out (R404). -/
def stepHeldOpen (x : StallSt) : Bool := x.openStep.isSome && x.mode != .held

/-- STALL_DISSOLVE (R404). -/
def execStallDissolve (p : Fin 18) : State → Out :=
  runCmd p 0x0101 fun s k =>
    match namedStall s k with
    | none => (s, some (scNO_STALL, []))
    | some x =>
      if stepHeldOpen x then (s, some (scSTALL_BUSY, []))
      else
        let s := (stallDies s x).foldl (fun s d =>
          modDie (leaveDie (stopDie s d) d) d fun y => { y with loaded := [] }) s
        (setStall s k.stall.toNat none, some (scOK, []))

/-- JOB_END (R404): the areas are free, HBM is left as it is. -/
def execJobEnd (p : Fin 18) : State → Out :=
  runCmd p 0x0103 fun s k =>
    match namedStall s k with
    | none => (s, some (scNO_STALL, []))
    | some x =>
      if stepHeldOpen x then (s, some (scSTALL_BUSY, []))
      else if x.job = [] then (s, some (scINVALID_PARAM, []))
      else
        let s := (stallDies s x).foldl (fun s d => setReg s (dieBlk d + 0x20) 0) s
        let y := StallSt.formed x.algrev x.dies x.mods
        (setStall s k.stall.toNat (some { y with chain := x.chain }), some (scOK, leBytes 8 (x.last.getD 0)))

/-- Whether a held stall may be released (R397): no step was open at the hold, or a recovery has brought the last closed
step back to what it was then. -/
def releasable (x : StallSt) : Bool := x.mode == .held && (!x.openAtHold || (x.restored && x.last == x.stallLast))

/-- STALL_RELEASE (R397). -/
def execStallRelease (p : Fin 18) : State → Out :=
  runCmd p 0x0105 fun s k =>
    match namedStall s k with
    | none => (s, some (scNO_STALL, []))
    | some x =>
      if !releasable x || x.openStep.isSome then (s, some (scINVALID_PARAM, []))
      else
        (setStall s k.stall.toNat (some { x with
            mode := if x.job = [] then .formed else .job
            openAtHold := false, restored := false, restoring := none, stallLast := none, spares := [] }), some (scOK, []))

/-! The chain table (R252, R253). -/

/-- A number raised to the next multiple of 64. -/
def up64 (n : Nat) : Nat := ceilDiv n 64 * 64

/-- Fields of a chain table. -/
structure Chain where
  nstrand : Nat
  nmem : Nat
  block : Nat
  dhead : Nat
  fmt : Nat
  heads : Nat
  slotblk : Nat
  diebudget : Nat
  cutlen : Nat
  dies : Nat
  slotstride : Nat
  deriving DecidableEq, Repr

/-- The fields that the header spells (R252). -/
def chainOf (b : List Byte) : Chain :=
  { nstrand := bits (leAt b 1 1) 2 0, nmem := leAt b 2 2, block := leAt b 4 2, dhead := leAt b 6 2,
    fmt := bits (leAt b 8 1) 3 0, heads := leAt b 9 1, slotblk := leAt b 10 2, diebudget := leAt b 12 4, cutlen := leAt b 16 4,
    dies := leAt b 32 8, slotstride := leAt b 40 4 }

/-- Offset of strand record `s`. -/
def strandAt (c : Chain) (s : Nat) : Nat := up64 (64 + 2 * c.nmem) + 16 * s

/-- Offset of ring array `s`. -/
def ringAt (c : Chain) (s : Nat) : Nat := up64 (strandAt c c.nstrand) + s * up64 (2 * c.nmem)

/-- Strand of head `h`. -/
def headStrand (b : List Byte) (h : Nat) : Nat := bits (leAt b 24 8) (4 * h + 3) (4 * h)

/-- Heads of strand `s`. -/
def strandHeads (b : List Byte) (c : Chain) (s : Nat) : Nat := popcount c.heads fun h => headStrand b h == s

/-- Bytes of a block image on strand `s` (R256). -/
def chainImg (b : List Byte) (c : Chain) (s : Nat) : Nat :=
  strandHeads b c s * c.block * c.dhead * (2 * (if c.fmt ≤ 1 then 2 else 1) + 8)

/-- Whether every field of the header lies in its range with its reserved bits 0 (R252). -/
def chainHeadOk (b : List Byte) (c : Chain) (x : StallSt) : Bool :=
  leAt b 0 1 == 1 && decide (1 ≤ c.nstrand) && decide (c.nstrand ≤ 6) && leAt b 1 1 / 8 == 0
    && decide (1 ≤ c.nmem) && decide (c.nmem ≤ 512)
    && decide (16 ≤ c.block) && decide (c.block ≤ 512) && c.block % 16 == 0
    && decide (16 ≤ c.dhead) && decide (c.dhead ≤ 256) && c.dhead % 32 == 0
    && decide (c.fmt ≤ 3) && leAt b 8 1 / 16 == 0 && decide (1 ≤ c.heads) && decide (c.heads ≤ 16)
    && decide (1 ≤ c.slotblk) && decide (c.slotblk ≤ 4096)
    && decide (16 ≤ c.diebudget) && decide (c.diebudget ≤ 65536) && c.diebudget % 16 == 0
    && decide (16 ≤ c.cutlen) && decide (c.cutlen ≤ c.diebudget) && c.cutlen % 16 == 0
    && zeroBytes b 20 23 && zeroBytes b 44 63 && c.slotstride % 4096 == 0
    && decide (c.dies < 2 ^ 36) && c.dies != 0 && ((List.range 36).all fun d => bits c.dies d d == 0 || x.dies.getLsbD d)
    && ((List.range 16).all fun h => if h < c.heads then decide (headStrand b h < c.nstrand) else headStrand b h == 0)

/-- Whether a list holds no number twice. -/
def distinctNats : List Nat → Bool
  | [] => true
  | a :: l => !l.contains a && distinctNats l

/-- Whether every die of a row takes part. -/
def rowInDies (dies r : Nat) : Bool := (List.range 6).all fun c => bits dies (6 * r + c) (6 * r + c) == 1

/-- Whether a strand record and its ring keep R253. -/
def strandOk (b : List Byte) (c : Chain) (s : Nat) : Bool :=
  let o := strandAt c s
  let srow := bits (leAt b o 1) 2 0
  let rrow := bits (leAt b o 1) 5 3
  let lbase := leAt b (o + 8) 8
  let img := ceilDiv c.slotblk 6 * chainImg b c s
  leAt b o 1 / 64 == 0 && zeroBytes b (o + 1) (o + 7) && decide (srow < 6) && decide (rrow < 6) && srow != rrow
    && rowInDies c.dies srow && rowInDies c.dies rrow && decide (1 ≤ strandHeads b c s)
    && decide (img ≤ c.slotstride) && lbase % 4096 == 0 && decide (lbase + 4096 + c.slotstride + img ≤ 0x4800000000)
    && (let ring := (List.range c.nmem).map fun j => leAt b (ringAt c s + 2 * j) 2
        ring.all (fun i => decide (i < c.nmem)) && distinctNats ring)

/-- Whether a table keeps every condition of R253. -/
def chainOk (x : StallSt) (b : List Byte) : Bool :=
  let c := chainOf b
  let mem := (List.range c.nmem).map fun i => leAt b (64 + 2 * i) 2
  let rows (sh : Nat) := (List.range c.nstrand).map fun s => bits (leAt b (strandAt c s) 1) (sh + 2) sh
  chainHeadOk b c x && decide (ringAt c (c.nstrand - 1) + 2 * c.nmem ≤ b.length)
    && mem.all (fun m => decide (m < 512) && hasMod x m) && distinctNats mem
    && (List.range c.nstrand).all (strandOk b c) && distinctNats (rows 0) && distinctNats (rows 3)

/-- CHAIN_SET (R252, R253): every die of the stall has the same table, kept with the stall. -/
def execChainSet (p : Fin 18) : State → Out :=
  runCmd p 0x0203 fun s k =>
    let off := leAt k.params 0 8
    let n := leAt k.params 8 4
    match namedStall s k with
    | none => (s, some (scNO_STALL, []))
    | some x =>
      if !woffOk s off n then (s, some (scINVALID_PARAM, []))
      else if x.openStep.isSome then (s, some (scSTEP_BUSY, []))
      else match winRead s off n with
        | (_, none) => (s, some (scINVALID_PARAM, []))
        | (s', some tbl) =>
          if !chainOk x tbl then (s, some (scINVALID_PARAM, []))
          else (extendConfig (setStall s' k.stall.toNat (some { x with chain := tbl })) 0x12 k.params tbl, some (scOK, []))

/-! Queries of a stall. -/

/-- Fields of the job (R405). -/
def jobNat (x : StallSt) (o n : Nat) : Nat := leAt x.job o n

/-- Address of the live Ledger record on every die of the stall (R287). -/
def jobLedger (x : StallSt) : Nat := jobNat x 32 8

/-- STEP_QUERY (R287, R399): DIE, PHASE, PASS and SERIAL of each die's live record. -/
def execStepQuery (p : Fin 18) : State → Out :=
  runCmd p 0x0302 fun s k =>
    match namedStall s k with
    | none => (s, some (scNO_STALL, []))
    | some x =>
      let one (d : Nat) : List Byte :=
        let r := if x.job = [] then [] else peek s d (jobLedger x) 40
        leBytes 2 d ++ slice r 36 2 ++ slice r 16 8 ++ [0, 0, 0, 0]
      (s, some (scOK, ((stallDies s x).map one).flatten))

/-- SNAP_RELEASE (R361). -/
def execSnapRelease (p : Fin 18) : State → Out :=
  runCmd p 0x0402 fun s k =>
    let n := leAt k.params 0 8
    match namedStall s k with
    | none => (s, some (scNO_STALL, []))
    | some x =>
      if !(x.snaps.any fun a => a.step == some n && a.complete) then (s, some (scINVALID_PARAM, []))
      else
        let l := x.snaps.map fun a => if a.step = some n then { a with released := true } else a
        (setStall s k.stall.toNat (some { x with snaps := l }), some (scOK, []))

end Sys2Proof.Machine
end

