-- ==== Sys2Proof/Machine/Tally.lean ====
section
/-! DEFINITION. The Tally (R346-R351): records, the three copies, retention, and what a write that is not acknowledged does;
JOB_CONFIG (R405) and STALL_HOLD (R370, R397). -/

namespace Sys2Proof.Machine

/-! Fields of the job (R405). -/

/-- Die of the Tally area. -/
def jobTallyDie (x : StallSt) : Nat := bits (jobNat x 24 1) 5 0
/-- Base of the Tally area. -/
def jobTallyBase (x : StallSt) : Nat := jobNat x 16 8
/-- Bytes of the Tally area. -/
def jobTallyBytes (x : StallSt) : Nat := jobNat x 28 4 * 2 ^ 20
/-- Base of the checkpoint slots on every die. -/
def jobCkpt (x : StallSt) : Nat := jobNat x 40 8
/-- Window offset of the Tally copy. -/
def jobTallyWin (x : StallSt) : Nat := jobNat x 56 8
/-- Window offset of snapshot slot `i`. -/
def jobSnapWin (x : StallSt) (i : Nat) : Nat := jobNat x (64 + 8 * i) 8
/-- Bytes of a snapshot slot. -/
def jobSnapBytes (x : StallSt) : Nat := jobNat x 80 8

/-! Units and addresses of the guardian's copies (log 14, log 23). -/

/-- Unit number of the writes that a stall's records and mirrors send to the guardian. -/
def unitTally (g : Nat) : Nat := 0x4100 + g

/-- Unit number of the reads of a guardian's copies for a stall. -/
def unitBack (g : Nat) : Nat := 0x4200 + g

/-- Address at guardian `m` of an item that it keeps for this module (see `Config.guardPlace`). -/
def guardAddr (s : State) (m g area item off : Nat) : Word :=
  BitVec.ofNat 64 (m * 2 ^ 55 + ((Config.guardPlace m (lmod s 0) g area item).toNat + off) % 2 ^ 55)

/-- Unit number of the copies that fill a new guardian (log 23). -/
def unitAssign : Nat := 0x4400

/-- Bytes sent to module `m` as a guardian, by unit number `u` of die `d`. -/
def sendTo (s : State) (m : Option (BitVec 9)) (u d g area item off : Nat) (bs : List Byte) : State :=
  match m with
  | none => s
  | some m => if bs = [] then s else askRange s d u true (guardAddr s m.toNat g area item off) bs.length bs

/-- Bytes sent to the guardian from die `d`, if there is one, and to the guardian that an assignment is filling (R365). -/
def sendGuard (s : State) (d g area item off : Nat) (bs : List Byte) : State :=
  sendTo (sendTo s s.torter.guardian (unitTally g) d g area item off bs) s.torter.assigning unitAssign d g area item off bs

/-- Writes of a unit number on every die. -/
def asksOf (s : State) (u : Nat) : List Ask := s.asked.filter fun q => q.sunit == u

/-- The requests of a unit number forgotten on every die, with their answers. -/
def forgetUnit (s : State) (u : Nat) : State :=
  let t := (asksOf s u).foldl (fun s q => dropAnswers s q.die u q.tag q.n) s
  { t with asked := t.asked.filter fun q => q.sunit != u }

/-- Statuses that a unit's requests have brought: none while one is unanswered. -/
def unitStatuses (s : State) (u : Nat) : Option (List Nat) :=
  let r := (asksOf s u).map fun q => answersOf s q.die u q.tag q.n
  if r.all (·.isSome) then some ((r.map fun a => (a.getD []).map (·.1)).flatten) else none

/-- An event of kind WARNING: WARN bits and the stall concerned (R391). -/
def warnEvent (s : State) (g : Nat) : State := postEvent s 0x07F1 (leBytes 4 (warnOf s g) ++ leBytes 4 g)

/-- Unit number of the reads of a fill (log 23). -/
def unitFill : Nat := 0x4300

/-- The module goes on without a guardian (R365): what it was asked for a stall is forgotten, and a fill that was reading
from it restarts from the host's copies (R376). -/
def dropGuardian (s : State) (g : Nat) : State :=
  modTorter (forgetUnit (forgetUnit s (unitTally g)) unitFill) fun t => { t with guardian := none, sharedFeed := false }

/-- The guardian is lost (R346, R365): the wards go on without it, and the notice accuses its module (R474). -/
def guardianLost (s : State) (g code : Nat) : State :=
  match s.torter.guardian with
  | none => forgetUnit s (unitTally g)
  | some m => raiseNotice (dropGuardian s g) 0 0 m.toNat 0 0 3 code

/-- The guardian's acknowledgements awaited: none while one is missing; a refusal or poison loses the guardian (R346),
with the DMA class's code for it (R219). -/
def settleGuard (s : State) (g : Nat) : Option State :=
  (unitStatuses s (unitTally g)).map fun l =>
    match l.find? (· != 0) with
    | none => forgetUnit s (unitTally g)
    | some st => guardianLost s g (if st = 2 then 2 else 4)

/-! Records (R347, R348). -/

/-- Record kinds. -/
def tkJOB : Nat := 1
/-- R348. -/
def tkBEGIN : Nat := 2
/-- R348. -/
def tkCLOSE : Nat := 3
/-- R348. -/
def tkABORT : Nat := 4
/-- R348. -/
def tkRESTORE : Nat := 5
/-- R348. -/
def tkCONFIG : Nat := 6

/-- Bytes padded with zeros to a multiple of 64. -/
def pad64 (bs : List Byte) : List Byte := bs ++ List.replicate (up64 bs.length - bs.length) 0

/-- CHECK over a record's bytes (R347), the field taken as 0. -/
def checkOf (b : List Byte) : Word :=
  (leWords (putAt b 24 (List.replicate 8 0))).foldl (fun h w => mix (h ^^^ w)) 0

/-- A record (R347) with the bytes that follow its header. -/
def recordOf (s : State) (kind step serial : Nat) (body : List Byte) : List Byte :=
  let b := pad64 body
  let r := [1, BitVec.ofNat 8 kind, 0, 0] ++ leBytes 4 (64 + b.length) ++ leBytes 8 step ++ leBytes 8 serial
    ++ List.replicate 8 0 ++ leBytes 4 s.supply.ns.toNat ++ leBytes 4 s.supply.pulse.toNat ++ List.replicate 24 0 ++ b
  putAt r 24 (wordBytes (checkOf r))

/-- Whether bytes start with a whole record whose CHECK holds (R347, R351). -/
def recordOk (b : List Byte) : Bool :=
  let n := leAt b 4 4
  leAt b 0 1 == 1 && decide (1 ≤ leAt b 1 1) && decide (leAt b 1 1 ≤ 6) && decide (64 ≤ n) && n % 64 == 0
    && decide (n ≤ b.length) && leWord (slice b 24 8) == checkOf (b.take n)

/-! Appending (R346, R350). -/

/-- The retention step (R350): records of later steps are kept; −1 keeps every record. -/
def retention (x : StallSt) : Int :=
  match x.restoring with
  | some b => b
  | none =>
    let v : Int := match x.last with
      | some v => (v : Int) - 1
      | none => -1
    x.snaps.foldl (fun r a => match a.step, a.complete with
      | some k, true => min r (k : Int)
      | _, _ => r) v

/-- First byte of the ring: the JOB record has the first 4 KiB (R346). -/
def ringBase : Nat := 4096

/-- Where a record of `n` bytes goes (R346): it wraps whole to the start of the ring. -/
def placeRecord (x : StallSt) (n : Nat) : Nat :=
  let p := max x.tallyPos ringBase
  if p + n ≤ jobTallyBytes x then p else ringBase

/-- Records that bytes `o` to `o + n` of the area overwrite. -/
def hitRecords (x : StallSt) (o n : Nat) : List (Nat × Nat × Nat × Nat) :=
  x.records.filter fun r => decide (r.2.2.1 < o + n) && decide (o < r.2.2.1 + r.2.2.2)

/-- Whether a record of `n` bytes may be appended (R350). -/
def roomFor (x : StallSt) (n : Nat) : Bool :=
  let o := placeRecord x n
  decide (o + n ≤ jobTallyBytes x) && (hitRecords x o n).all fun r => decide ((r.2.1 : Int) ≤ retention x)

/-- Whether the owner's write of a range of its Tally area fails (R346): it meets a failed stack (R181, R195).  JOB_CONFIG
has refused an area that is not mapped (R405). -/
def ownerRefuses (s : State) (x : StallSt) (o n : Nat) : Bool := (deadIn s (jobTallyDie x) (jobTallyBase x + o) n).isSome

/-- A record's bytes written at the owner, sent to the guardian and written in the window; a window write that fails is
remembered (R346). -/
def writeRecord (s : State) (g : Nat) (x : StallSt) (kind o : Nat) (r : List Byte) : State × StallSt :=
  let s := poke s (jobTallyDie x) (jobTallyBase x + o) r
  let s := sendGuard s (jobTallyDie x) g 0 0 o r
  let x := { x with lastAppend := some (kind, o, r.length) }
  match winWrite s (jobTallyWin x + o) r with
  | some s => (s, x)
  | none => (s, { x with winFailed := x.winFailed ++ [(o, r.length)] })

/-- The JOB record (R346, R348): at the start of the area. -/
def appendJob (s : State) (g : Nat) (x : StallSt) (body : List Byte) : State × StallSt :=
  let s := tickNs s
  writeRecord s g { x with serial := 1, tallyPos := ringBase } tkJOB 0 (recordOf s tkJOB 0 0 body)

/-- What an append comes to (R346, R350). -/
inductive Appended where
  /-- it would overwrite a kept record, and is not made -/
  | full
  /-- the owner's write failed: the record does not count -/
  | failed
  | made (s : State) (x : StallSt)

/-- A record appended (R346, R350). -/
def appendRecord (s : State) (g : Nat) (x : StallSt) (kind step : Nat) (body : List Byte) : Appended :=
  let s := tickNs s
  let r := recordOf s kind step x.serial body
  let n := r.length
  let o := placeRecord x n
  if !roomFor x n then .full
  else if ownerRefuses s x o n then .failed
  else
    let keep := x.records.filter fun q => !(hitRecords x o n).contains q
    let w := writeRecord s g { x with serial := x.serial + 1, tallyPos := o + n, records := keep ++ [(kind, step, o, n)] } kind o r
    .made w.1 w.2

/-- The last record of a stall taken back (R346): it is not counted, and the next append writes over it. -/
def StallSt.unappend (x : StallSt) (o n : Nat) : StallSt :=
  { x with
    serial := x.serial - 1, tallyPos := o, lastAppend := none
    records := x.records.filter fun r => r.2.2.1 != o || r.2.2.2 != n }

/-- A record appended to a stall's Tally, or not made (R346, R350). -/
def noteRecord (s : State) (g kind step : Nat) (body : List Byte) : State :=
  match getStall s g with
  | none => s
  | some x =>
    if x.job = [] then s
    else match appendRecord s g x kind step body with
      | .made s x => setStall s g (some x)
      | _ => s

/-! Reading a record back (R351). -/

/-- What reading a record comes to. -/
inductive Got where
  | waiting
  | bytes (b : List Byte)
  | corrupt
  deriving DecidableEq, Repr

/-- The host's copy of bytes of the area, through the window. -/
def hostCopy (s : State) (x : StallSt) (o n : Nat) : Got :=
  match winRead s (jobTallyWin x + o) n with
  | (_, some b) => if recordOk b then .bytes b else .corrupt
  | _ => .corrupt

/-- A good copy of a record put back in its place at the owner, where its step reads it (R351; log 145). -/
def mendRecord (s : State) (x : StallSt) (o : Nat) (r : Got) : State × Got :=
  match r with
  | .bytes b => (poke s (jobTallyDie x) (jobTallyBase x + o) b, r)
  | _ => (s, r)

/-- A record from the owner's area, else from the guardian's copy, else from the host's (R351). -/
def recordGet (s : State) (g : Nat) (x : StallSt) (o n : Nat) : State × Got :=
  let d := jobTallyDie x
  match ctlRead s d (jobTallyBase x + o) n with
  | (s, some b) => if recordOk b then (s, .bytes b) else other s d
  | (s, none) => other s d
where
  /-- The other copies. -/
  other (s : State) (d : Nat) : State × Got :=
    match s.torter.guardian with
    | none => mendRecord s x o (hostCopy s x o n)
    | some m =>
      match readAway s d (unitBack g) (guardAddr s m.toNat g 0 0 o) n with
      | (s, .error .waiting) => (s, .waiting)
      | (s, .error _) => mendRecord (forgetUnit s (unitBack g)) x o (hostCopy s x o n)
      | (s, .ok b) =>
        let s := forgetUnit s (unitBack g)
        mendRecord s x o (if recordOk b then .bytes b else hostCopy s x o n)

/-- The latest record of a kind and step: its place and length. -/
def findRecord (x : StallSt) (kind step : Nat) : Option (Nat × Nat) :=
  (x.records.reverse.find? fun r => r.1 == kind && r.2.1 == step).map fun r => (r.2.2.1, r.2.2.2)

/-! JOB_CONFIG (R405). -/

/-- An area of memory: die, first byte, bytes. -/
abbrev Extent := Nat × Nat × Nat

/-- Whether two areas share a byte. -/
def meet (a b : Extent) : Bool := a.1 == b.1 && decide (a.2.1 < b.2.1 + b.2.2) && decide (b.2.1 < a.2.1 + a.2.2)

/-- Whether no two areas of a list share a byte. -/
def apart : List Extent → Bool
  | [] => true
  | a :: l => !(l.any (meet a)) && apart l

/-- Whether every stack of a die has passed boot, so that its HBM is backed (R181). -/
def hbmWhole (s : State) (d : Nat) : Bool := decide (s.secure.stage < 6) || rf s (dieBlk d) DIE_CAP_HBMOK == 15

/-- Whether an area lies in backed HBM of a die of the part (R181). -/
def inHbm (s : State) (a : Extent) : Bool := dieOk s a.1 && decide (a.2.1 + a.2.2 ≤ 0x4800000000) && hbmWhole s a.1

/-- Areas that a job takes on the module (R405): Tally, guard area, live records and checkpoint slots. -/
def jobAreas (s : State) (x : StallSt) : List Extent :=
  [(jobTallyDie x, jobTallyBase x, jobTallyBytes x), (bits (jobNat x 88 1) 5 0, jobNat x 96 8, jobNat x 92 4 * 2 ^ 30)]
    ++ (stallDies s x).map (fun d => (d, jobLedger x, 192)) ++ (stallDies s x).map fun d => (d, jobCkpt x, 2 ^ 21)

/-- Areas that a job takes of the window, as areas of one unit. -/
def jobWindows (x : StallSt) : List Extent :=
  [(0, jobTallyWin x, jobTallyBytes x), (0, jobSnapWin x 0, jobSnapBytes x), (0, jobSnapWin x 1, jobSnapBytes x)]

/-- Bytes in use of a checkpoint with these numbers of queues and layers (R352). -/
def ckptBytes (nq nl : Nat) : Nat := 512 + 128 * nq + 32 * nl

/-- Whether no die's checkpoint would exceed its slot, by the live record as it stands (R352). -/
def ckptFits (s : State) (x : StallSt) : Bool :=
  (stallDies s x).all fun d =>
    let r := peek s d (jobLedger x) 64
    decide (ckptBytes (leAt r 40 4) (leAt r 44 4) ≤ 2 ^ 20)

/-- Whether a code is a positive BF16 number or +∞ (R312: MAXNORM). -/
def maxNormOk (c : Nat) : Bool := decide (1 ≤ c) && decide (c ≤ 0x7F80)

/-- Whether a job's areas and sizes are good (R405, R352). -/
def jobOk (s : State) (x : StallSt) : Bool :=
  jobTallyBase x % 4096 == 0 && decide (64 ≤ jobNat x 28 4) && jobLedger x % 64 == 0 && jobCkpt x % 2 ^ 20 == 0
    && jobNat x 96 8 % 2 ^ 30 == 0 && maxNormOk (jobNat x 104 2)
    && (jobAreas s x).all (inHbm s) && apart (jobAreas s x)
    && (jobWindows x).all (fun a => a.2.1 % 4096 == 0 && (winRange s a.2.1 a.2.2).isSome) && apart (jobWindows x)
    && ckptFits s x

/-- The stall with a job, before anything is appended (R405); tables that the stall has been given stay. -/
def StallSt.withJob (x : StallSt) (b : List Byte) : StallSt :=
  { StallSt.formed x.algrev x.dies x.mods with
    mode := .job, job := b, period := leAt b 48 4, chain := x.chain, busy := x.busy, sharedFeed := x.sharedFeed
    protect := x.protect, methods := x.methods, changed := x.changed, spares := x.spares
    snaps := [⟨none, false, false⟩, ⟨none, false, false⟩] }

/-- What refuses a job, in the order of R405's table. -/
def jobRefusal (s : State) (x : StallSt) (b : List Byte) : Option Nat :=
  let req := leAt b 53 1
  if x.job ≠ [] then some scSTALL_BUSY
  else if (bits req 0 0 == 1 && !s.secure.variant.gcmp) || (bits req 1 1 == 1 && !s.secure.variant.plu) then some scUNIT_ABSENT
  else if leAt b 52 1 ≠ s.secure.variant.algrev.toNat then some scINCOMPATIBLE_REVISION
  else if !jobOk s (x.withJob b) then some scINVALID_PARAM
  else none

/-- DIE_JOBKEY and STY_MAXNORM of the stall's dies (R405). -/
def jobRegs (s : State) (x : StallSt) : State :=
  (stallDies s x).foldl (fun s d =>
    wf (setReg s (dieBlk d + 0x20) (BitVec.ofNat 64 (jobNat x 0 8))) (styBlk d) STY_MAXNORM_M (jobNat x 104 2)) s

/-- Contents of the JOB record (R348): key, digest, P, ALGREV, PART. -/
def jobBody (s : State) (x : StallSt) : List Byte :=
  slice x.job 0 8 ++ leBytes 8 (shake256 x.job).toNat ++ leBytes 4 x.period ++ [s.secure.variant.algrev, s.secure.variant.part]

/-! STALL_HOLD. -/

/-- Commands that a hold ends (R397): waiting STEP_ENDs and the stall command in progress. -/
def endCommands (s : State) (x : StallSt) (p : Fin 18) : State :=
  let s := x.enders.foldl (fun s e => giveAnswer s e.1.val scSTALL_HELD []) s
  match x.busy with
  | some q => if q = p then s else giveAnswer s q.val scSTALL_HELD []
  | none => s

/-- A fill of a stall abandoned (R397). -/
def dropFill (s : State) (g : Nat) : State :=
  match s.torter.fill with
  | some f => if f.stall = g then modTorter (forgetUnit s unitFill) fun t => { t with fill := none } else s
  | none => s

/-- The step that had begun at a hold: it is open, or its BEGIN record is complete (R346, R370, R397). -/
def begunStep (s : State) (g : Nat) (x : StallSt) : Option Nat :=
  match x.openStep, x.append with
  | some n, _ => some n
  | none, some w => if x.mode ≠ .held && (unitStatuses s (unitTally g)).isSome then some w.step else none
  | none, none => none

/-- A BEGIN record that is not complete at a hold taken back (R346). -/
def dropAppend (s : State) (g : Nat) (x : StallSt) : StallSt :=
  match x.append with
  | some ⟨_, _, some (o, n)⟩ => if (begunStep s g x).isSome then x else x.unappend o n
  | _ => x

/-- STALL_HOLD (R370, R376, R397): the step is stopped on every die, an ABORT record names it, and what waits ends.  A hold
of a stall that is held already leaves what the first hold found (R367). -/
def execStallHold (p : Fin 18) : State → Out :=
  runCmd p 0x0104 fun s k =>
    let g := k.stall.toNat
    match namedStall s k with
    | none => (s, some (scNO_STALL, []))
    | some x =>
      let was := begunStep s g x
      let again := x.mode == .held
      let s := setStall s g (some (dropAppend s g x))
      let s := (stallDies s x).foldl stopDie s
      let s := forgetUnit (dropFill s g) (unitBack g)
      let s := match was with
        | some n => if x.replaying then s else noteRecord s g tkABORT n (leBytes 8 0)
        | none => s
      let s := modStall s g fun y =>
        { y with
          mode := .held, openStep := none, replaying := false, append := none, busy := none, closing := none, enders := []
          openAtHold := was.isSome || (again && x.openAtHold), lastAtHold := if again then x.lastAtHold else x.last
          restored := false, stallLast := if again then x.stallLast else none }
      (endCommands s x p, some (scOK, leBytes 8 (x.last.getD 0) ++ leBytes 8 (b2n was.isSome)))

/-- Waiting STEP_ENDs answered (R407). -/
def answerEnders (s : State) (g : Nat) (st : Nat) (data : List Byte) : State :=
  match getStall s g with
  | none => s
  | some x =>
    let s := setStall s g (some { x with enders := [] })
    pumpPaths (x.enders.foldl (fun s e => giveAnswer s e.1.val st data) s)

/-- A die that cannot close, because what its checkpoint copies reads as poison or does not fit, fails the step: waiting
STEP_ENDs end (R272; log 34). -/
def failDie (s : State) (g d : Nat) : State :=
  answerEnders (modDie s d fun y => { y with failed := true }) g scSTEP_INCOMPLETE []

/-- A step that does not close on the module (R272, R346, R355). -/
def closeFails (s : State) (g : Nat) (x : StallSt) : State :=
  failDie (modStall s g fun y => { y with closing := none }) g ((stallDies s x).headD 0)

/-- The owner has not acknowledged the record appended last (R346): the append fails.  With a BEGIN record the step does not
start; with a CLOSE record it does not close (log 144). -/
def ownerTimeout (s : State) (g : Nat) (x : StallSt) : State :=
  match x.lastAppend with
  | none => s
  | some (kind, o, n) =>
    let y := x.unappend o n
    let s := forgetUnit s (unitTally g)
    match (if kind = tkBEGIN then x.append else none) with
    | some w => answer (setStall s g (some { y with append := none, busy := none })) w.path.val scTALLY_WRITE_FAILED []
    | none =>
      if kind = tkCLOSE && x.closing.isSome then closeFails (setStall s g (some y)) g y else setStall s g (some y)

end Sys2Proof.Machine
end

