-- ==== Sys2Proof/Machine/Steps.lean ====
section
/-! DEFINITION. Steps (R270-R272, R406, R407): pass plans (R264-R266), BEGIN records (R349), STEP_BEGIN with its replay
(R374), STEP_END, and what a die controller does at the start and at the close of a step (R289, R352, R353). -/

namespace Sys2Proof.Machine

/-! Pass plans (R264-R266). -/

/-- A segment of a plan (R266): member, place of the die among DIES, sequence, first position, tokens. -/
structure Seg where
  member : Nat
  die : Nat
  seq : Nat
  pos : Nat
  tok : Nat
  deriving DecidableEq, Repr

/-- `n` units spread over `m` places, the first ones taking one more (R265). -/
def spread (n m : Nat) : List Nat := (List.range m).map fun i => n / m + (if i < n % m then 1 else 0)

/-- Units of a long sequence on each die of the members it takes, in chain die order. -/
def longUnits (units m nd : Nat) : List Nat := ((spread units m).map fun u => spread u nd).flatten

/-- Segments of a long sequence: contiguous runs from the first die of member `cur` on. -/
def longSegs (nd cur q len : Nat) : Nat → Nat → List Nat → List Seg
  | _, _, [] => []
  | i, pos, u :: us =>
    let t := min (16 * u) (len - pos)
    let rest := longSegs nd cur q len (i + 1) (pos + 16 * u) us
    if t = 0 then rest else ⟨cur + i / nd, i % nd, q, pos, t⟩ :: rest

/-- Tokens on a die of a member. -/
def dieLoad (segs : List Seg) (m d : Nat) : Nat :=
  (segs.filter fun g => g.member == m && g.die == d).foldl (fun n g => n + g.tok) 0

/-- The long sequences of a pass placed (R265); none where a member beyond the last would be used. -/
def placeLong (c : Chain) (nd : Nat) : Nat → List (Nat × Nat) → Option (List Seg)
  | _, [] => some []
  | cur, (q, len) :: rest =>
    if len ≤ c.diebudget then placeLong c nd cur rest
    else
      let m := ceilDiv len (nd * c.cutlen)
      if c.nmem < cur + m then none
      else (placeLong c nd (cur + m) rest).map fun l =>
        longSegs nd cur q len 0 0 (longUnits (ceilDiv len 16) m nd) ++ l

/-- The short sequences placed on the first die with room (R265). -/
def placeShort (c : Chain) (nd : Nat) : List Seg → List (Nat × Nat) → Option (List Seg)
  | segs, [] => some segs
  | segs, (q, len) :: rest =>
    if c.diebudget < len || len = 0 then placeShort c nd segs rest
    else
      match (List.range (c.nmem * nd)).find? fun i => dieLoad segs (i / nd) (i % nd) + len ≤ c.diebudget with
      | none => none
      | some i => placeShort c nd (segs ++ [⟨i / nd, i % nd, q, 0, len⟩]) rest

/-- Whether no die and no chunk takes more than it may (R264, R265). -/
def placementOk (c : Chain) (nd : Nat) (segs : List Seg) : Bool :=
  (List.range (c.nmem * nd)).all (fun i => decide (dieLoad segs (i / nd) (i % nd) ≤ c.diebudget))
    && (List.range c.nmem).all fun m =>
      decide ((segs.filter fun g => g.member == m).foldl (fun n g => n + ceilDiv g.tok c.block) 0 ≤ c.slotblk)

/-- A pass placed (R265): sequences as index and length, in Tally order. -/
def placePass (c : Chain) (seqs : List (Nat × Nat)) : Option (List Seg) :=
  let nd := popcount 36 fun d => bits c.dies d d == 1
  match placeLong c nd 0 seqs with
  | none => none
  | some l =>
    match placeShort c nd l seqs with
    | none => none
    | some segs => if placementOk c nd segs then some segs else none

/-- Passes formed (R265): a sequence joins the current pass if the pass can still be placed; none where a sequence cannot
be placed in an empty pass. -/
def formPasses (c : Chain) : List (Nat × Nat) → List (Nat × Nat) → List (List Seg) → Option (List (List Seg))
  | [], cur, done => if cur = [] then some done else (placePass c cur).map fun l => done ++ [l]
  | q :: rest, cur, done =>
    if (placePass c (cur ++ [q])).isSome then formPasses c rest (cur ++ [q]) done
    else match placePass c cur with
      | none => none
      | some l => if cur = [] || (placePass c [q]).isNone then none else formPasses c rest [q] (done ++ [l])

/-- Segments in record order (R266): by member, then by die, then by placement. -/
def sortSegs (c : Chain) (nd : Nat) (segs : List Seg) : List Seg :=
  ((List.range (c.nmem * nd)).map fun i => segs.filter fun g => g.member == i / nd && g.die == i % nd).flatten

/-- Bytes of a plan (R266). -/
def planBytes (c : Chain) (step n : Nat) (segs : List Seg) : List Byte :=
  let ds := (List.range 36).filter fun d => bits c.dies d d == 1
  let l := sortSegs c ds.length segs
  [1, 0, 0, 0] ++ leBytes 4 n ++ leBytes 4 l.length ++ leBytes 4 0 ++ leBytes 8 step ++ leBytes 8 0
    ++ (l.map fun g =>
        leBytes 4 g.seq ++ leBytes 4 g.pos ++ leBytes 4 g.tok ++ leBytes 2 g.member ++ leBytes 2 (ds.getD g.die 0)).flatten

/-- The pass plans of a step (R264), each padded to 64 bytes; no plan where the stall has no chain table. -/
def stepPlans (x : StallSt) (step nseq : Nat) (inputs : List Byte) : Option (Nat × List Byte) :=
  if x.chain = [] then some (0, [])
  else
    let c := chainOf x.chain
    let seqs := (List.range nseq).map fun i => (i, leAt inputs (16 * i) 4)
    (formPasses c seqs [] []).map fun ps =>
      (ps.length, ((List.range ps.length).map fun i => pad64 (planBytes c step i (ps.getD i []))).flatten)

/-! BEGIN records (R349). -/

/-- Contents of a BEGIN record up to TOKENS (R349). -/
def beginBody (params inputs : List Byte) (npass : Nat) (plans : List Byte) : List Byte :=
  let nseq := leAt params 24 4
  let scal := params.drop 64
  let head := slice params 8 8 ++ leBytes 4 nseq ++ leBytes 4 npass ++ leBytes 2 scal.length ++ slice params 34 2
    ++ List.replicate 12 0 ++ pad64 scal ++ slice inputs 0 (16 * nseq)
  pad64 (pad64 head ++ inputs.drop (up64 (16 * nseq))) ++ plans

/-- Where `n` pass plans that start at byte `o` of a record end (R266, R349). -/
def plansEnd (rec : List Byte) : Nat → Nat → Nat
  | 0, o => o
  | n + 1, o => plansEnd rec n (o + up64 (32 + 16 * leAt rec (o + 8) 4))

/-- Whether a BEGIN record agrees with the parameters and the input block (R406): SEED, NSEQ, NOUPDATE, SCALARS, SEQDIR and
TOKENS are those that they would give, and nothing but the record's own pass plans follows them. -/
def beginAgrees (rec params inputs : List Byte) : Bool :=
  let npass := leAt rec 76 4
  let body := beginBody params inputs npass []
  slice rec 64 body.length == body && plansEnd rec npass (64 + body.length) == rec.length

/-! The protection table (R357). -/

/-- TID of an extent. -/
def extTid (w : List Word) : Nat := bits (wd w 0).toNat 31 0
/-- METHOD. -/
def extMethod (w : List Word) : Nat := bits (wd w 0).toNat 33 32
/-- SNAPCOVER. -/
def extCover (w : List Word) : Bool := (wd w 0).getLsbD 34
/-- BASE. -/
def extBase (w : List Word) : Word := wd w 1
/-- BYTES. -/
def extBytes (w : List Word) : Nat := (wd w 2).toNat
/-- Die of an extent. -/
def extDie (w : List Word) : Nat := addrDie (extBase w)
/-- Die-local address of an extent. -/
def extLocal (w : List Word) : Nat := addrLocal (extBase w)
/-- Segments of 64 KiB (R357). -/
def extSegs (w : List Word) : Nat := ceilDiv (extBytes w) 65536
/-- Bytes of segment `i`. -/
def segBytes (w : List Word) (i : Nat) : Nat := min 65536 (extBytes w - 65536 * i)
/-- Die-local address of the dirty map of a parity. -/
def extDirty (w : List Word) (par : Nat) : Nat := addrLocal (wd w (3 + par % 2))
/-- Whether an extent's generations are filled, by its index: 1, or 0 at a demotion that the next close makes (R359). -/
def mirrored (x : StallSt) (i : Nat) : Bool := x.methods.getD i 2 == 1 || x.methods.getD i 2 == 0
/-- Whether an extent's method in force is MIRROR: by its table entry, or by AUTO once a close has filled it (R357, R359). -/
def isMirror (x : StallSt) (i : Nat) : Bool := extMethod (x.protect.getD i []) == 1 || mirrored x i
/-- Whether an extent is in the snapshot set (R361). -/
def inSnapshot (x : StallSt) (i : Nat) : Bool := !isMirror x i || extCover (x.protect.getD i [])
/-- Indices of the extents. -/
def extents (x : StallSt) : List Nat := List.range x.protect.length
/-- Extent `i`. -/
def extent (x : StallSt) (i : Nat) : List Word := x.protect.getD i []

/-- The dirty maps of a step's parity cleared (R358). -/
def clearDirty (s : State) (x : StallSt) (step : Nat) : State :=
  x.protect.foldl (fun s w => poke s (extDie w) (extDirty w step) (List.replicate (8 * extSegs w) 0)) s

/-- Whether some extent of another module of the stall is SNAPSHOT (R362; log 147). -/
def otherSnap (s : State) (g : Nat) (x : StallSt) : Bool := decide (1 < popcount 512 (hasMod x)) && Config.peerSnapshot g s.fresh

/-- Whether every extent of a stall is MIRROR, as far as the module knows (R362). -/
def allMirror (s : State) (g : Nat) (x : StallSt) : Bool := (extents x).all (isMirror x) && !otherSnap s g x

/-- SNAPCOVER set on every mirror where it is needed. -/
def StallSt.covered (x : StallSt) (need : Bool) : StallSt :=
  let cover (i : Nat) : List Word :=
    let w := extent x i
    if need && isMirror x i then w.set 0 (wd w 0 ||| 0x400000000) else w
  { x with protect := (extents x).map cover }

/-- SNAPCOVER where some extent of the stall is a snapshot, or where ward and guardian share a feed (R362, R364). -/
def coverStall (s : State) (g : Nat) (x : StallSt) : StallSt := x.covered (!allMirror s g x || x.sharedFeed)

/-- Whether the snapshot cover of a stall is as R362 asks. -/
def coverOk (s : State) (g : Nat) (x : StallSt) : Bool := allMirror s g x || decide (1 ≤ x.period)

/-! The start of a step (R270). -/

/-- Whether every core of the stall on a die is IDLE or DONE. -/
def dieReady (s : State) (d : Nat) : Bool :=
  (List.range 256).all fun n => coreState s d n = stIDLE || coreState s d n = stDONE

/-- A write at a global address that names memory of this module; any other place is left alone (log 34). -/
def ownWrite (s : State) (a : Word) (bs : List Byte) : State :=
  if isOwn s (addrMod a) then
    match plainTarget s a bs.length with
    | some (t, l) => poke s t l bs
    | none => s
  else s

/-- A read at a global address of this module; none where there is no such memory or it is poisoned. -/
def ownRead (s : State) (a : Word) (n : Nat) : State × Option (List Byte) :=
  if n = 0 then (s, some [])
  else if isOwn s (addrMod a) then
    match plainTarget s a n with
    | some (t, l) => ctlRead s t l n
    | none => (s, none)
  else (s, none)

/-- The live record and the mark table at the start of a step (R270). -/
def ledgerStart (s : State) (x : StallSt) (d step : Nat) : State :=
  let l := jobLedger x
  let s := poke s d (l + 8) (leBytes 8 step ++ List.replicate 20 0 ++ leBytes 2 1)
  let marks := peekWord s d (l + 56)
  (List.range (leAt (peek s d (l + 44) 4) 0 4)).foldl
    (fun s i => ownWrite s (marks + BitVec.ofNat 64 (32 * i + 16)) (List.replicate 16 0)) s

/-- What the controller of a die does at the start of a step (R270, R74). -/
def dieStart (s : State) (x : StallSt) (step d : Nat) : State :=
  let s := (List.range 256).foldl (fun s n => setReg s (coreBlk d n + 0x50) (BitVec.ofNat 64 step)) s
  let s := ledgerStart s x d step
  let s := wf (setRed s d RedSt.reset) (redBlk d) RED_DONE_COUNT 0
  let s := wf (setSty s d StySt.reset) (styBlk d) STY_STATUS_CLIPVALID 0
  let cores := (getDie s d).loaded
  let s := modDie s d fun y =>
    { y with started := cores, participants := cores, arrived := [], closed := false, failed := false }
  cores.foldl (fun s n => coreRun s d n.val) s

/-- A step whose record is complete starts (R270, R358), once every core of the stall is IDLE or DONE and, for a record
appended now, the guardian has acknowledged it (R346). -/
def stepStart (s : State) (g : Nat) (x : StallSt) (w : AppendWait) (replay : Bool) : State × Ans :=
  match settleGuard s g with
  | none => (s, none)
  | some s =>
    if !(stallDies s x).all (dieReady s) then (s, none)
    else
      let s := clearDirty s x w.step
      let s := (stallDies s x).foldl (fun s d => dieStart s x w.step d) s
      let y := { x with
        append := none, openStep := some w.step, replaying := replay
        mode := if replay then .held else .stepOpen }
      (setStall s g (some y), some (scOK, []))

/-! STEP_BEGIN (R406). -/

/-- Whether only STEP is given (R406: REPLAY). -/
def replayParamsOk (b : List Byte) : Bool := b.length == 64 && zeroBytes b 8 63

/-- Whether a step number may be begun (R271): one more than the last closed step; any before a first close (log 35). -/
def stepNumberOk (x : StallSt) (n : Nat) : Bool :=
  match x.last with
  | some v => n == v + 1
  | none => true

/-- A replayed step's record is fetched and checked (R351, R374): of a step that the recovery replays, a record that no
copy yields is a corrupt one. -/
def beginReplay (s : State) (g : Nat) (x : StallSt) (p : Fin 18) (n : Nat) : State × Ans :=
  match findRecord x tkBEGIN n with
  | none => (s, some (scTALLY_CORRUPT, []))
  | some (o, len) =>
    match recordGet s g x o len with
    | (s, .waiting) => (s, none)
    | (s, .corrupt) => (s, some (scTALLY_CORRUPT, []))
    | (s, .bytes _) =>
      let w : AppendWait := ⟨p, n, none⟩
      stepStart (setStall s g (some { x with append := some w })) g { x with append := some w } w true

/-- An ordinary step: its record is appended, or compared with the one that an aborted attempt left (R406). -/
def beginStep (s : State) (g : Nat) (x : StallSt) (p : Fin 18) (b inputs : List Byte) : State × Ans :=
  let n := leAt b 0 8
  let go (s : State) (x : StallSt) (f : Option (Nat × Nat)) : State × Ans :=
    let w : AppendWait := ⟨p, n, f⟩
    stepStart (setStall s g (some { x with append := some w })) g { x with append := some w } w false
  match findRecord x tkBEGIN n with
  | some (o, len) =>
    match recordGet s g x o len with
    | (s, .waiting) => (s, none)
    | (s, .corrupt) => (s, some (scTALLY_CORRUPT, []))
    | (s, .bytes r) => if beginAgrees r b inputs then go s x none else (s, some (scINVALID_PARAM, []))
  | none =>
    match stepPlans x n (leAt b 24 4) inputs with
    | none => (s, some (scINVALID_PARAM, []))
    | some (np, plans) =>
      let body := beginBody b inputs np plans
      match appendRecord s g x tkBEGIN n body with
      | .full => (s, some (scTALLY_FULL, []))
      | .failed => (s, some (scTALLY_WRITE_FAILED, []))
      | .made s y => go s y (some (placeRecord x (64 + up64 body.length), 64 + up64 body.length))

/-- The input block of a step (R406): in mapped, whole window memory and large enough for its sequences. -/
def stepInputs (s : State) (b : List Byte) : State × Option (List Byte) :=
  let off := leAt b 16 8
  let n := leAt b 28 4
  if !woffOk s off n || n < 16 * leAt b 24 4 || 256 < leAt b 32 2 then (s, none) else winRead s off n

/-- STEP_BEGIN (R270, R271, R362, R374, R406). -/
def execStepBegin (p : Fin 18) : State → Out :=
  runCmd p 0x0300 fun s k =>
    let g := k.stall.toNat
    let b := k.params
    let n := leAt b 0 8
    let replay := k.flags.getLsbD 1
    match namedStall s k with
    | none => (s, some (scNO_STALL, []))
    | some x =>
      match x.append with
      | some w => stepStart s g x w (x.mode == .held)
      | none =>
        if x.openStep.isSome then (s, some (scSTEP_BUSY, []))
        else if x.job = [] then (s, some (scINVALID_PARAM, []))
        else if replay then
          (if x.mode ≠ .held || !x.restored || !replayParamsOk b || x.last.isNone || !stepNumberOk x n || x.replayTo < n
            then (s, some (scINVALID_PARAM, []))
            else beginReplay s g x p n)
        else if !stepNumberOk x n || !coverOk s g x then (s, some (scINVALID_PARAM, []))
        else match stepInputs s b with
          | (_, none) => (s, some (scINVALID_PARAM, []))
          | (s, some inputs) => beginStep s g (coverStall s g x) p b inputs

/-! STEP_END (R407). -/

/-- Data of a step's result (R407). -/
def resultBytes (c : CloseRec) : List Byte :=
  leBytes 8 c.step ++ leBytes 2 (c.loss.toNat / 65536) ++ leBytes 2 c.loss.toNat
    ++ leBytes 4 (c.snap.toNat + 4 * b2n c.nonfinite) ++ leBytes 8 c.dstep.toNat ++ leBytes 8 c.dmod.toNat
    ++ (match c.mismatch with
        | none => []
        | some (l, d) => leBytes 4 l.toNat ++ leBytes 4 0 ++ leBytes 8 d.toNat)

/-- The reply to STEP_END of a closed step. -/
def resultAns (c : CloseRec) : Nat × List Byte := (if c.mismatch.isSome then scREPLAY_MISMATCH else scOK, resultBytes c)

/-- STEP_END (R272, R374, R407): it waits for the open step, and returns the last closed step's result again, or that of a
replayed step that did not match. -/
def execStepEnd (p : Fin 18) : State → Out :=
  runCmd p 0x0301 fun s k =>
    let g := k.stall.toNat
    let n := leAt k.params 0 8
    match namedStall s k with
    | none => (s, some (scNO_STALL, []))
    | some x =>
      if x.openStep = some n then
        (if (stallDies s x).any fun d => (getDie s d).failed then (s, some (scSTEP_INCOMPLETE, []))
        else (setStall s g (some { x with enders := (x.enders.filter fun e => e.1 != p) ++ [(p, n)] }), none))
      else match x.closes.find? fun c => c.step == n with
        | some c =>
          if x.last = some n || c.mismatch.isSome then (s, some (resultAns c)) else (s, some (scINVALID_PARAM, []))
        | none => (s, some (scINVALID_PARAM, []))

/-! The close of a die (R272, R289, R352, R353). -/

/-- Whether every core of a die, all of whose cores are its stall's, has a state given (R272). -/
def coresEnded (s : State) (d : Nat) (ok : Nat → Bool) : Bool := (List.range 256).all fun n => ok (coreState s d n)

/-- Whether an entry of the die's exchange has ended with an error, so that the step does not close (R304). -/
def exchangeFailed (s : State) (d : Nat) : Bool := (getRed s d).ended.length != 0

/-- Whether a queue header is balanced (R272). -/
def headerBalanced (h : List Byte) : Bool :=
  let kind := bits (leAt h 0 1) 3 0
  let put := leAt h 8 4
  let got := leAt h 12 4
  let peer := leAt h 16 4
  if kind = 3 then put == peer else if kind = 4 then peer == got else put == got

/-- Header addresses listed at QLIST of the live record `r`. -/
def queueList (s : State) (r : List Byte) : State × Option (List Word) :=
  let (s, b) := ownRead s (leWord (slice r 48 8)) (8 * leAt r 40 4)
  (s, b.map leWords)

/-- The headers at a list of addresses. -/
def readHeaders : State → List Word → State × Option (List (List Byte))
  | s, [] => (s, some [])
  | s, a :: l =>
    let (s, h) := ownRead s a 64
    let (s, t) := readHeaders s l
    (s, match h, t with
      | some h, some t => some (h :: t)
      | _, _ => none)

/-- The counter sums of a live record (R287). -/
def ledgerSums (s : State) (d : Nat) : List Byte :=
  let sum (o : Nat) : Word := (List.range 16).foldl (fun n c => n + regWord s (clBlk d c + o)) 0
  ((List.range 10).map fun k => wordBytes (sum (0x140 + 8 * k))).flatten ++ wordBytes (sum 0x130) ++ wordBytes (sum 0x138)

/-- What a close reads of a die: its live record, header addresses, headers and mark table; none where a read fails. -/
def ledgerRead (s : State) (x : StallSt) (d : Nat) : State × Option (List Byte × List Word × List (List Byte) × List Byte) :=
  match ctlRead s d (jobLedger x) 192 with
  | (s, none) => (s, none)
  | (s, some r) =>
    match queueList s r with
    | (s, none) => (s, none)
    | (s, some qs) =>
      match readHeaders s qs with
      | (s, none) => (s, none)
      | (s, some hs) =>
        let (s, m) := ownRead s (leWord (slice r 56 8)) (32 * leAt r 44 4)
        (s, m.map fun m => (r, qs, hs, m))

/-- Bytes of a checkpoint slot (R352). -/
def ckptImage (s : State) (d step : Nat) (live : List Byte) (qs : List Word) (hs : List (List Byte)) (marks : List Byte) :
    List Byte :=
  let n := ckptBytes qs.length (leAt live 44 4)
  [1, BitVec.ofNat 8 d, 0, 0] ++ leBytes 4 n ++ leBytes 8 step ++ leBytes 4 qs.length ++ leBytes 4 (leAt live 44 4)
    ++ List.replicate 40 0 ++ live
    ++ ((List.range 16).map fun c =>
        leBytes 8 (rf s (clBlk d c) SC_HEAD_HEAD) ++ leBytes 8 (rf s (clBlk d c) SC_TAIL_TAIL)).flatten
    ++ ((qs.zip hs).map fun p => wordBytes p.1 ++ List.replicate 56 0 ++ p.2).flatten ++ marks

/-- Address of the checkpoint slot of a step's parity (R352). -/
def ckptAt (x : StallSt) (step : Nat) : Nat := jobCkpt x + step % 2 * 2 ^ 20

/-- A checkpoint slot whole: what the checkpoint does not use is 0 (R353; log 146). -/
def wholeSlot (img : List Byte) : List Byte := img ++ List.replicate (2 ^ 20 - img.length) 0

/-- STEP of a slot that is being written (R353). -/
def slotOpen : List Byte := List.replicate 8 0xFF

/-- A slot written in its three phases (R353): STEP as all ones, every other byte, STEP; each write is acknowledged before the
next. -/
def writeSlot (s : State) (d l : Nat) (slot : List Byte) : State :=
  let s := poke s d (l + 8) slotOpen
  let s := poke (poke s d l (slice slot 0 8)) d (l + 16) (slot.drop 16)
  poke s d (l + 8) (slice slot 8 8)

/-- Whether the stash accounts of a die are empty (R272). -/
def stashEmpty (s : State) (d : Nat) : Bool := (List.range 16).all fun c => rf s (clBlk d c) SC_STATUS_USED == 0

/-- DIE_CLOSE (R272, R289, R352, R353): where the conditions hold, PHASE becomes 5 and the checkpoint of the step's parity
is written, its STEP last. -/
def execDieClose (d : Die) (s : State) : Out :=
  let n := d.val
  onDie n s <|
    match stallOf s n with
    | none => s
    | some (g, x) =>
      match x.openStep with
      | none => s
      | some step =>
        if (getDie s n).closed || (getDie s n).failed || !coresEnded s n (· == stDONE) || !stashEmpty s n
            || exchangeFailed s n then s
        else match ledgerRead s x n with
          | (s, none) => failDie s g n
          | (t, some (r, qs, hs, m)) =>
            if !hs.all headerBalanced then s
            else
              let live := putAt (putAt r 36 (leBytes 2 5)) 64 (ledgerSums t n)
              let img := ckptImage t n step live qs hs m
              if 2 ^ 20 < img.length then failDie t g n
              else
                let t := writeSlot (poke t n (jobLedger x) live) n (ckptAt x step) (wholeSlot img)
                modDie t n fun y => { y with closed := true }

/-- Whether a die meets the conditions of R272, no entry of its exchange having failed (R304; log 137). -/
def closable (s : State) (x : StallSt) (n : Nat) : Bool :=
  coresEnded s n (· == stDONE) && stashEmpty s n && !exchangeFailed s n &&
    (match ledgerRead s x n with
    | (_, some (_, _, hs, _)) => hs.all headerBalanced
    | _ => false)

/-- DIE_STEP_FAILED (R272): every core has ended and the die cannot close. -/
def execDieStepFailed (d : Die) (s : State) : Out :=
  let n := d.val
  onDie n s <|
    match stallOf s n with
    | none => s
    | some (g, x) =>
      if x.openStep.isNone || (getDie s n).closed || (getDie s n).failed || closable s x n
          || !coresEnded s n (fun v => v == stDONE || v == stFAULTED) then s
      else failDie s g n

end Sys2Proof.Machine
end

