-- ==== Sys2Proof/Machine/Close.lean ====
section
/-! DEFINITION. The close of a step (R355, R356, R359-R361, R366, R374): digests, mirrors, snapshots, the CLOSE record and
the replies; and PROTECT_SET (R357). -/

namespace Sys2Proof.Machine

/-! Digests (R355, R356). -/

/-- Sum of the terms of words from an address on (R355). -/
def digestWords : Word → List Word → Word
  | _, [] => 0
  | a, w :: ws => mix (w ^^^ mix a) + digestWords (a + 8) ws

/-- The checkpoint slot of a step's parity on a die, whole; none where it is poisoned. -/
def ckptRead (s : State) (x : StallSt) (d step : Nat) : State × Option (List Byte) := ctlRead s d (ckptAt x step) (2 ^ 20)

/-- A checkpoint slot as the digest takes it: bytes 128-223 are 0 (R355). -/
def ckptMasked (img : List Byte) : List Byte := putAt img 128 (List.replicate 96 0)

/-- The notice of a word that reads as poison at close (R355, R198). -/
def digestPoison (s : State) (d l : Nat) : State :=
  let (cls, _, kind, idx) := memClass l
  raiseNotice s d kind (lmod s d) d idx 2 (0x80 + cls)

/-- Bytes that a close reads (R355, R377): none, with the notice, where a unit of them is poisoned. -/
def closeRead (s : State) (d l n : Nat) : State × Option (List Byte) :=
  if n = 0 then (s, some [])
  else match memRead s d l n .clean with
    | (s, .poison u) => (digestPoison s d u, none)
    | (s, .bytes bs) => (s, some bs)

/-- Sum over the extents given; none where a word reads as poison. -/
def digestExtents (s : State) (d : Nat) : List (List Word) → State × Option Word
  | [] => (s, some 0)
  | w :: ws =>
    if extDie w ≠ d || extBytes w = 0 then digestExtents s d ws
    else match closeRead s d (extLocal w) (extBytes w) with
      | (s, none) => (s, none)
      | (s, some bs) =>
        let (s, t) := digestExtents s d ws
        (s, t.map fun t => digestWords (globalAddr s d (extLocal w)) (leWords bs) + t)

/-- D_die (R355) with a checkpoint image. -/
def dieDigest (s : State) (x : StallSt) (d step : Nat) (img : List Byte) : State × Option Word :=
  let (s, e) := digestExtents s d x.protect
  (s, e.map fun e => e + digestWords (globalAddr s d (ckptAt x step)) (leWords (ckptMasked img)))

/-- The chain of R356 over the dies given, each with its checkpoint image. -/
def moduleChain (x : StallSt) (step : Nat) : State → Word → List (Nat × List Byte) → State × Option Word
  | s, h, [] => (s, some h)
  | s, h, (d, img) :: l =>
    match dieDigest s x d step img with
    | (s, none) => (s, none)
    | (s, some v) => moduleChain x step s (mix (h ^^^ v)) l

/-- Checkpoint slots of the stall's dies; none where one is poisoned. -/
def ckptImages (x : StallSt) (step : Nat) : State → List Nat → State × Option (List (Nat × List Byte))
  | s, [] => (s, some [])
  | s, d :: ds =>
    match closeRead s d (ckptAt x step) (2 ^ 20) with
    | (s, none) => (s, none)
    | (s, some img) =>
      let (s, l) := ckptImages x step s ds
      (s, l.map fun l => (d, img) :: l)

/-- D_mod (R356). -/
def moduleDigest (s : State) (x : StallSt) (step : Nat) (imgs : List (Nat × List Byte)) : State × Option Word :=
  moduleChain x step s (mix (BitVec.ofNat 64 step)) imgs

/-- D_mod of every module of the stall, ascending: this module's own, and the others' in their order. -/
def allDigests (s : State) (own : Word) : List Nat → List Word → List Word
  | [], _ => []
  | m :: ms, ds => if isOwn s m then own :: allDigests s own ms ds else wd ds 0 :: allDigests s own ms ds.tail

/-- D_step (R356). -/
def stallDigest (s : State) (x : StallSt) (step : Nat) (loss : BitVec 32) (own : Word) (others : List Word) : Word :=
  (allDigests s own ((List.range 512).filter (hasMod x)) others).foldl (fun h d => mix (h ^^^ d))
    (mix (BitVec.ofNat 64 step ^^^ BitVec.ofNat 64 loss.toNat))

/-- Whether a stall has a module besides this one. -/
def manyMods (x : StallSt) : Bool := decide (1 < popcount 512 (hasMod x))

/-- The lead has formed D_step (R356): it writes it and the loss pair back to every other module. -/
def sendStep (s : State) (g : Nat) (x : StallSt) (dstep : Word) (loss : BitVec 32) : State :=
  if manyMods x then emit s (.stepDigest g dstep loss) else s

/-- Address of the loss pair (R405). -/
def jobLoss (x : StallSt) : Word := leWord (slice x.job 8 8)

/-- The loss pair as the lead reads it: hi at LOSS and lo after it (log 36); one that lies on another module is as given. -/
def lossPair (s : State) (x : StallSt) (given : BitVec 32) : State × Option (BitVec 32) :=
  if isOwn s (addrMod (jobLoss x)) then
    let (s, b) := ownRead s (jobLoss x) 4
    (s, b.map fun b => BitVec.ofNat 32 (leAt b 0 2 * 65536 + leAt b 2 2))
  else (s, some given)

/-! Mirrors (R358, R360). -/

/-- Whether a segment of an extent is marked in the dirty map of a parity. -/
def marked (s : State) (w : List Word) (par i : Nat) : Bool := peekWord s (extDie w) (extDirty w par + 8 * i) != 0

/-- Bytes of a die sent into the guardian's area (R360): none, with the notice, where they are poisoned, since poison is never
restored as a value (R377; log 150). -/
def sendCopy (s : State) (g d area item off l n : Nat) : Option State × State :=
  match closeRead s d l n with
  | (s, none) => (none, s)
  | (s, some bs) => (some (sendGuard s d g area item off bs), s)

/-- Copies sent one after another, until one is poisoned. -/
def sendCopies (g : Nat) : State → List (Nat × Nat × Nat × Nat × Nat × Nat) → State × Bool
  | s, [] => (s, true)
  | s, (d, area, item, off, l, n) :: rest =>
    match sendCopy s g d area item off l n with
    | (some t, _) => sendCopies g t rest
    | (none, t) => (t, false)

/-- Segment `j` of extent `i` as a copy into the generation of a parity. -/
def segCopy (x : StallSt) (i par j : Nat) : Nat × Nat × Nat × Nat × Nat × Nat :=
  let w := extent x i
  (extDie w, 3, 2 * i + par % 2, 65536 * j, extLocal w + 65536 * j, segBytes w j)

/-- The generation word of a parity sent. -/
def sendGenWord (s : State) (g : Nat) (x : StallSt) (par : Nat) (v : Word) : State :=
  sendGuard s (jobTallyDie x) g 1 (par % 2) 0 (wordBytes v)

/-- STEP of the mirrored checkpoint slots of a parity sent (R353). -/
def sendCkptSteps (s : State) (g : Nat) (x : StallSt) (par : Nat) (b : List Byte) : State :=
  (stallDies s x).foldl (fun s d => sendGuard s d g 2 (2 * d + par % 2) 8 b) s

/-- The copies of every other byte of the checkpoint slots of a parity (R353, R360). -/
def ckptCopies (s : State) (x : StallSt) (par : Nat) : List (Nat × Nat × Nat × Nat × Nat × Nat) :=
  ((stallDies s x).map fun d =>
    [(d, 2, 2 * d + par % 2, 0, ckptAt x par, 8), (d, 2, 2 * d + par % 2, 16, ckptAt x par + 16, 2 ^ 20 - 16)]).flatten

/-- What the close of a step copies into its generation (R359, R360): every marked segment of a mirror that stands; a new
mirror fills both generations whole, and one that this close demotes gets nothing. -/
def mirrorCopies (s : State) (x : StallSt) (step : Nat) : List (Nat × Nat × Nat × Nat × Nat × Nat) :=
  ((extents x).map fun i =>
    let w := extent x i
    ((List.range (extSegs w)).map fun j =>
      if x.methods.getD i 2 = 3 then [segCopy x i 0 j, segCopy x i 1 j]
      else if x.methods.getD i 2 = 1 && (marked s w 0 j || marked s w 1 j) then [segCopy x i step j]
      else []).flatten).flatten

/-- The changes of method that this close makes (R359). -/
def StallSt.filled (x : StallSt) : StallSt :=
  { x with methods := x.methods.map fun m => if m = 3 then 1 else if m = 0 then 2 else m }

/-! Room at the guardian, and cover. -/

/-- Bytes of guard area that a stall's records and mirrors need (R360, R363). -/
def guardNeed (s : State) (x : StallSt) : Nat :=
  jobTallyBytes x + (stallDies s x).length * 2 ^ 21
    + ((extents x).filter fun i => isMirror x i || x.methods.getD i 2 == 3).foldl (fun n i => n + 2 * extBytes (extent x i)) 0

/-- Whether the guardian's area holds what this much more would need (R357, R359). -/
def guardHolds (s : State) (x : StallSt) (more : Nat) : Bool :=
  match s.torter.guardian with
  | some m => decide (guardNeed s x + more ≤ Config.guardRoom m.toNat s.fresh)
  | none => false

/-- Contents of a CONFIG record (R348): digest of the table, the shared feed, the changes. -/
def configBody (x : StallSt) (changes : List (Nat × Nat)) : List Byte :=
  wordBytes ((x.protect.flatten).foldl (fun h w => mix (h ^^^ w)) 0) ++ leBytes 8 (b2n x.sharedFeed)
    ++ leBytes 8 changes.length ++ (changes.map fun c => leBytes 4 c.1 ++ leBytes 4 c.2).flatten

/-! AUTO (R359). -/

/-- Changed bytes of an extent in a step, by its marks. -/
def changedBytes (s : State) (w : List Word) (step : Nat) : Nat :=
  (List.range (extSegs w)).foldl (fun n j => if marked s w step j then n + segBytes w j else n) 0

/-- The changed bytes of the last 16 closes, newest first. -/
def StallSt.counted (x : StallSt) (s : State) (step : Nat) : StallSt :=
  { x with changed := (extents x).map fun i => (changedBytes s (extent x i) step :: x.changed.getD i []).take 16 }

/-- Average of an extent's changed bytes, times 720,720 so that it is exact. -/
def changeRate (x : StallSt) (i : Nat) : Nat :=
  let l := x.changed.getD i []
  if l = [] then 0 else l.foldl (· + ·) 0 * 720720 / l.length

/-- Place of an extent in the ranking: small ones first, then by rate, TID and BASE. -/
def rankKey (x : StallSt) (i : Nat) : List Nat :=
  let w := extent x i
  [b2n (decide (2 ^ 20 < extBytes w)), changeRate x i, extTid w, (extBase w).toNat]

/-- Order of two keys of equal length. -/
def keyLe : List Nat → List Nat → Bool
  | a :: as, b :: bs => decide (a < b) || (a == b && keyLe as bs)
  | _, _ => true

/-- An extent put in its place of a ranking. -/
def rankInsert (x : StallSt) (i : Nat) : List Nat → List Nat
  | [] => [i]
  | j :: l => if keyLe (rankKey x i) (rankKey x j) then i :: j :: l else j :: rankInsert x i l

/-- The AUTO extents ranked. -/
def ranking (x : StallSt) : List Nat :=
  (((extents x).filter fun i => extMethod (extent x i) == 0).foldr (rankInsert x) [])

/-- Extents marked MIRROR down the ranking while the budget and the guard area suffice. -/
def takeMirrors (s : State) (x : StallSt) (budget : Nat) : Nat → Nat → List Nat → List Nat
  | _, _, [] => []
  | sum, more, i :: l =>
    let sum := sum + changeRate x i
    let more := more + 2 * extBytes (extent x i)
    if sum ≤ budget && guardHolds s x more then i :: takeMirrors s x budget sum more l else []

/-- Methods of the AUTO extents after a ranking (R359): a change is pending until the next close makes it. -/
def autoMethods (s : State) (x : StallSt) : List (BitVec 2) :=
  let mib := if jobNat x 26 2 = 0 then 64 else jobNat x 26 2
  let fixed := (extents x).filter fun i => extMethod (extent x i) == 1
  let base : StallSt := { x with methods := (extents x).map fun i => if fixed.contains i then 1 else 2 }
  let pick := takeMirrors s base (mib * 2 ^ 20 * 720720) (fixed.foldl (fun n i => n + changeRate x i) 0) 0 (ranking x)
  (extents x).map fun i =>
    if fixed.contains i then x.methods.getD i 3
    else if pick.contains i then (if mirrored x i then 1 else 3)
    else if mirrored x i then 0 else 2

/-- AUTO resolved at a step that is a multiple of 64, with a CONFIG record for each change (R359). -/
def autoResolve (s : State) (g : Nat) (x : StallSt) (step : Nat) : State :=
  if step % 64 ≠ 0 then s
  else
    let new := autoMethods s x
    let changes := (extents x).filter fun i => (new.getD i 2).getLsbD 0 != isMirror x i
    let y := { x with methods := new }
    changes.foldl (fun s i => noteRecord s g tkCONFIG step (configBody y [(i, if (new.getD i 2).getLsbD 0 then 1 else 2)]))
      (setStall s g (some y))

/-! Snapshots (R361). -/

/-- The pieces of the snapshot set in slot order: the extents in table order, then the checkpoint slots (log 37). -/
def snapPieces (s : State) (x : StallSt) (step : Nat) : List (Nat × Nat × Nat) :=
  (((extents x).filter (inSnapshot x)).map fun i => (extDie (extent x i), extLocal (extent x i), extBytes (extent x i)))
    ++ (stallDies s x).map fun d => (d, ckptAt x step, 2 ^ 20)

/-- Bytes of a list of pieces. -/
def piecesLen (ps : List (Nat × Nat × Nat)) : Nat := ps.foldl (fun n p => n + p.2.2) 0

/-- The slot for a snapshot: an empty one, or a released one that is not the newest released. -/
def pickSlot (x : StallSt) : Option Nat :=
  let newest := x.snaps.foldl (fun m a => match a.step, a.released with
    | some k, true => max m (k + 1)
    | _, _ => m) 0
  indexOf (fun a : SnapSlot => match a.step with
    | none => true
    | some k => a.released && k + 1 != newest) x.snaps

/-- The snapshot of a step: 0 not due, 1 taken, 2 skipped. -/
def takeSnapshot (s : State) (g : Nat) (x : StallSt) (step : Nat) : State × StallSt × BitVec 2 :=
  if x.period = 0 || step % x.period ≠ 0 then (s, x, 0)
  else
    let ps := snapPieces s x step
    let n := piecesLen ps
    let skip : State × StallSt × BitVec 2 :=
      let y := { x with snapSkipped := true }
      (warnEvent (setStall s g (some y)) g, y, 2)
    match pickSlot x with
    | none => skip
    | some i =>
      match winRange s (jobSnapWin x i) n with
      | none => skip
      | some dst =>
        if jobSnapBytes x < n then skip
        else
          (copyAll s ps dst, { x with snapSkipped := false, snaps := x.snaps.set i ⟨some step, true, false⟩ }, 1)

/-! The close (R366). -/

/-- Window copies that failed made again (R346); none where one fails again. -/
def retryWindow (s : State) (x : StallSt) : Option State :=
  x.winFailed.foldl (fun r p => r.bind fun s =>
    winWrite s (jobTallyWin x + p.1) (peek s (jobTallyDie x) (jobTallyBase x + p.1) p.2)) (some s)

/-- NONFINITE of the step (R306), by the node of the stall's lowest die. -/
def stepNonfinite (s : State) (x : StallSt) (step : Nat) : Bool :=
  let b := styBlk ((stallDies s x).headD 0)
  rfb s b STY_STATUS_NONFINITE && rf s b STY_CLIP_STEP == step % 2 ^ 32

/-- Contents of a CLOSE record (R348). -/
def closeBody (s : State) (c : CloseRec) : List Byte :=
  leBytes 8 c.dstep.toNat ++ leBytes 8 c.dmod.toNat ++ leBytes 4 c.loss.toNat
    ++ [BitVec.ofNat 8 c.snap.toNat, BitVec.ofNat 8 (b2n c.nonfinite), 0, 0] ++ leBytes 4 (rf s (linkBlk 0) LK_EPOCH_EPOCH)

/-- Loss pair and D_step of a CLOSE record. -/
def closeValues (b : List Byte) : BitVec 32 × Word := (BitVec.ofNat 32 (leAt b 80 4), leWord (slice b 64 8))

/-- PHYSID of the module that stands for logical module `m` (R348, R436). -/
def physidOf (s : State) (m : Nat) : Word := if isOwn s m then s.secure.physid else Config.peerPhysid m s.fresh

/-- Contents of a RESTORE record (R348): restore step, replayed steps, the spares placed and their PHYSIDs, topology epoch. -/
def restoreBody (s : State) (x : StallSt) (b n : Nat) : List Byte :=
  leBytes 8 b ++ leBytes 8 n ++ leBytes 8 x.spares.length ++ (x.spares.map fun m => wordBytes (physidOf s m)).flatten
    ++ leBytes 8 (rf s (linkBlk 0) LK_EPOCH_EPOCH)

/-- Proof passed (R350, R374): a RESTORE record, and retention as outside a recovery. -/
def proofPassed (s : State) (g : Nat) (x : StallSt) (b : Nat) : State :=
  let s := noteRecord s g tkRESTORE b (restoreBody s x b (x.replayTo - b))
  modStall s g fun y => { y with proved := true, restoring := none, spares := [] }

/-- The results that a later RESTORE may need again (R367, R407): those of the steps from the retention step on. -/
def StallSt.keptCloses (x : StallSt) : List CloseRec := x.closes.filter fun c => decide (retention x ≤ (c.step : Int))

/-- The step is over and STEP_END returns (R366, R374, R407); a replay that does not match leaves the stall held at the step
before it, to be restored again. -/
def closeFinish (s : State) (g : Nat) (x : StallSt) (c : CloseRec) : State :=
  let s := modStall s g fun y =>
    let z := { y with
      openStep := none, closing := none, replaying := false, winFailed := []
      mode := if x.replaying then .held else .job
      closes := c :: y.closes.filter fun e => e.step != c.step }
    if c.mismatch.isSome then { z with restored := false }
    else
      let w := { z with last := some c.step, nonfinite := c.nonfinite }
      { w with closes := w.keptCloses }
  let s := match x.restoring with
    | some b => if x.replaying && !x.proved && c.mismatch.isNone then proofPassed s g x b else s
    | none => s
  answerEnders s g (resultAns c).1 (resultAns c).2

/-- What a replayed step's CLOSE record says (R374): nothing for an ordinary step. -/
def recordedClose (s : State) (g : Nat) (x : StallSt) (step : Nat) : State × Option Got :=
  if !x.replaying then (s, none)
  else match findRecord x tkCLOSE step with
    | none => (s, some .corrupt)
    | some (o, n) =>
      let (s, r) := recordGet s g x o n
      (s, some r)

/-- Changes of method, snapshot, CLOSE record and result (R366, 4 and 5); a step whose CLOSE record is not appended does not
close (log 144), and a replay that does not match takes no snapshot and leaves the methods (log 151). -/
def closeRecord (s : State) (g : Nat) (x : StallSt) (step : Nat) (c : ClosingSt) (old : Option (BitVec 32 × Word)) : State :=
  let put (s : State) (x : StallSt) (snap : BitVec 2) : CloseRec × State :=
    let r : CloseRec := ⟨step, c.loss, c.dstep, c.dmod, snap, stepNonfinite s x step, old⟩
    (r, setStall s g
      (some { x with closing := some { c with stage := 6 }, closes := r :: x.closes.filter fun e => e.step != step }))
  if old.isSome then (put s x 0).2
  else
    let (s, x, snap) := takeSnapshot s g (StallSt.counted (coverStall s g x.filled) s step) step
    let (r, s) := put s x snap
    let s := autoResolve s g ((getStall s g).getD x) step
    match (getStall s g).map fun y => appendRecord s g y tkCLOSE step (closeBody s r) with
      | some (.made s y) => setStall s g (some y)
      | _ => closeFails s g x

/-- A recovery that finds no good copy of a record ends (R351). -/
def closeCorrupt (s : State) (g : Nat) : State :=
  answerEnders (modStall s g fun y => { y with openStep := none, closing := none, replaying := false }) g scTALLY_CORRUPT []

/-- The parts of a close that follow the digests (R360, R366), as far as the guardian's acknowledgements allow; `fuel` bounds
them. -/
def closeRun : Nat → State → Nat → State
  | 0, s, _ => s
  | fuel + 1, s, g =>
    match getStall s g with
    | none => s
    | some x =>
      match x.closing, x.openStep with
      | some c, some step =>
        match settleGuard s g with
        | none => s
        | some s =>
          let next (s : State) (k : Nat) : State :=
            closeRun fuel (modStall s g fun y => { y with closing := some { c with stage := k } }) g
          let copied (r : State × Bool) (k : Nat) : State := if r.2 then next r.1 k else closeFails r.1 g x
          match c.stage with
          | 1 => copied (sendCopies g (sendCkptSteps s g x step slotOpen) (mirrorCopies s x step)) 2
          | 2 => copied (sendCopies g s (ckptCopies s x step)) 3
          | 3 => next (sendCkptSteps s g x step (leBytes 8 step)) 4
          | 4 => next (sendGenWord s g x step (BitVec.ofNat 64 step)) 5
          | 5 =>
            match recordedClose s g x step with
            | (s, some .waiting) => s
            | (s, some .corrupt) => closeCorrupt s g
            | (s, some (.bytes b)) =>
              if closeValues b = (c.loss, c.dstep) then closeRun fuel (closeRecord s g x step c none) g
              else closeRun fuel (closeRecord s g x step c (some (closeValues b))) g
            | (s, none) =>
              match retryWindow s x with
              | none => closeFails s g x
              | some s => closeRun fuel (closeRecord s g { x with winFailed := [] } step c none) g
          | _ =>
            match retryWindow s x, x.closes.find? fun r => r.step == step with
            | some s, some r => closeFinish s g x r
            | _, _ => closeFails s g x
      | _, _ => s

/-- The digests of a step whose dies have all closed (R355, R356), and the generation marked incomplete (R360). -/
def closeBegin (s : State) (g : Nat) (x : StallSt) (step : Nat) (dstep : Word) (others : List Word) (loss : BitVec 32) :
    State :=
  match ckptImages x step s (stallDies s x) with
  | (s, none) => closeFails s g x
  | (s, some imgs) =>
    match moduleDigest s x step imgs with
    | (s, none) => closeFails s g x
    | (s, some dmod) =>
      let start (s : State) (ds : Word) (l : BitVec 32) : State :=
        closeRun 8 (sendGenWord (modStall s g fun y => { y with closing := some ⟨1, dmod, ds, l⟩ }) g x step
          0xFFFFFFFFFFFFFFFF) g
      if isOwn s (leadMod x) then
        match lossPair s x loss with
        | (s, none) => closeFails s g x
        | (s, some l) =>
          let ds := stallDigest s x step l dmod others
          start (sendStep s g x ds l) ds l
      else start (emit s (.digest g dmod)) dstep loss

/-- STEP_CLOSE (R366): once every die of the stall has closed; the parts that wait for the guardian follow as it
acknowledges. -/
def execStepClose (stall : Fin 256) (dstep : Word) (others : List Word) (loss : BitVec 32) (s : State) : Out :=
  let g := stall.val
  .next <|
    match getStall s g with
    | none => s
    | some x =>
      match x.openStep with
      | none => s
      | some step =>
        if !(stallDies s x).all (fun d => (getDie s d).closed && !(getDie s d).failed && !exchangeFailed s d) then s
        else if x.closing.isSome then closeRun 8 s g
        else closeBegin s g x step dstep others loss

/-! PROTECT_SET (R357). -/

/-- Whether an entry keeps its own limits (R357). -/
def entryOk (s : State) (w : List Word) : Bool :=
  let map (par : Nat) : Bool :=
    let a := wd w (3 + par)
    isOwn s (addrMod a) && addrDie a == extDie w && a.toNat % 8 == 0 && inHbm s (addrDie a, addrLocal a, 8 * extSegs w)
  extMethod w != 3 && bits (wd w 0).toNat 63 35 == 0 && wd w 5 == 0 && wd w 6 == 0 && wd w 7 == 0
    && isOwn s (addrMod (extBase w)) && (extBase w).toNat % 65536 == 0 && extBytes w % 8 == 0
    && inHbm s (extDie w, extLocal w, extBytes w) && map 0 && map 1

/-- Extents of a table as areas. -/
def extAreas (t : List (List Word)) : List Extent := t.map fun w => (extDie w, extLocal w, extBytes w)

/-- Dirty maps of a table as areas. -/
def mapAreas (t : List (List Word)) : List Extent :=
  t.map (fun w => (extDie w, extDirty w 0, 8 * extSegs w)) ++ t.map fun w => (extDie w, extDirty w 1, 8 * extSegs w)

/-- Areas of a job that no dirty map may overlap: Tally, guard area and checkpoint slots. -/
def recordAreas (s : State) (x : StallSt) : List Extent :=
  if x.job = [] then []
  else [(jobTallyDie x, jobTallyBase x, jobTallyBytes x), (bits (jobNat x 88 1) 5 0, jobNat x 96 8, jobNat x 92 4 * 2 ^ 30)]
    ++ (stallDies s x).map fun d => (d, jobCkpt x, 2 ^ 21)

/-- Whether a table keeps R357. -/
def tableOk (s : State) (x : StallSt) (t : List (List Word)) : Bool :=
  t.all (entryOk s) && apart (extAreas t) && apart (mapAreas t)
    && (mapAreas t).all fun m => !((extAreas t).any (meet m)) && !((recordAreas s x).any (meet m))

/-- The stall with a protection table (R357, R362): AUTO starts as SNAPSHOT, a mirror has yet to be filled. -/
def StallSt.protecting (x : StallSt) (t : List (List Word)) : StallSt :=
  { x with protect := t, methods := t.map fun w => if extMethod w = 1 then 3 else 2, changed := t.map fun _ => [] }

/-- PROTECT_SET (R357, R362). -/
def execProtectSet (p : Fin 18) : State → Out :=
  runCmd p 0x0400 fun s k =>
    let g := k.stall.toNat
    let off := leAt k.params 0 8
    let n := 64 * leAt k.params 8 4
    match namedStall s k with
    | none => (s, some (scNO_STALL, []))
    | some x =>
      if !woffOk s off n then (s, some (scINVALID_PARAM, []))
      else match winRead s off n with
        | (_, none) => (s, some (scINVALID_PARAM, []))
        | (t, some b) =>
          let tbl := chunks 8 n (leWords b)
          if !tableOk s x tbl then (s, some (scINVALID_PARAM, []))
          else
            let y := coverStall t g (x.protecting tbl)
            if s.torter.guardian.isSome && !guardHolds s y 0 then (s, some (scGUARD_FULL, []))
            else
              let changes := (extents y).map fun i => (i, extMethod (extent y i))
              let t := noteRecord (setStall t g (some y)) g tkCONFIG (x.last.getD 0) (configBody y changes)
              (extendConfig t 0x14 k.params b, some (scOK, []))

end Sys2Proof.Machine
end

