-- ==== Sys2Proof/Machine/CoreInstr.lean ====
section
/-! DEFINITION. The instructions of a core: each passes the gate of issue with its own part (R62-R66). -/

namespace Sys2Proof.Machine

/-- MOVI (R78). -/
def execMovi (c : CoreId) (h : Hdr) (o : SeqOp) (s : State) : Out :=
  onClocked c.die.val s (seqIssue s c.die.val c.n.val (.movi c h o) fun s pc =>
    bodyMovi s c.die.val c.n.val pc o)

/-- ALU (R78). -/
def execAlu (c : CoreId) (h : Hdr) (o : SeqOp) (s : State) : Out :=
  onClocked c.die.val s (seqIssue s c.die.val c.n.val (.alu c h o) fun s pc =>
    bodyAlu s c.die.val c.n.val pc o)

/-- LDX (R78). -/
def execLdx (c : CoreId) (h : Hdr) (o : SeqOp) (s : State) : Out :=
  onClocked c.die.val s (seqIssue s c.die.val c.n.val (.ldx c h o) fun s _ =>
    bodyLdx s c.die.val c.n.val o)

/-- STX (R78). -/
def execStx (c : CoreId) (h : Hdr) (o : SeqOp) (s : State) : Out :=
  onClocked c.die.val s (seqIssue s c.die.val c.n.val (.stx c h o) fun s pc =>
    bodyStx s c.die.val c.n.val pc h o)

/-- DLD (R78). -/
def execDld (c : CoreId) (h : Hdr) (o : SeqOp) (s : State) : Out :=
  onClocked c.die.val s (seqIssue s c.die.val c.n.val (.dld c h o) fun s _ =>
    bodyDld s c.die.val c.n.val o)

/-- DST (R78). -/
def execDst (c : CoreId) (h : Hdr) (o : SeqOp) (s : State) : Out :=
  onClocked c.die.val s (seqIssue s c.die.val c.n.val (.dst c h o) fun s pc =>
    bodyDst s c.die.val c.n.val pc h o)

/-- DSET (R78). -/
def execDset (c : CoreId) (h : Hdr) (o : SeqOp) (s : State) : Out :=
  onClocked c.die.val s (seqIssue s c.die.val c.n.val (.dset c h o) fun s pc =>
    bodyDset s c.die.val c.n.val pc o)

/-- DADV (R70). -/
def execDadv (c : CoreId) (h : Hdr) (o : SeqOp) (s : State) : Out :=
  onClocked c.die.val s (seqIssue s c.die.val c.n.val (.dadv c h o) fun s pc =>
    bodyDadv s c.die.val c.n.val pc o)

/-- SRD (R178). -/
def execSrd (c : CoreId) (h : Hdr) (o : SeqOp) (s : State) : Out :=
  onClocked c.die.val s (seqIssue s c.die.val c.n.val (.srd c h o) fun s pc =>
    bodySrd s c.die.val c.n.val pc o)

/-- SWR (R178). -/
def execSwr (c : CoreId) (h : Hdr) (o : SeqOp) (s : State) : Out :=
  onClocked c.die.val s (seqIssue s c.die.val c.n.val (.swr c h o) fun s pc =>
    bodySwr s c.die.val c.n.val pc o)

/-- DQ (R204). -/
def execDq (c : CoreId) (h : Hdr) (o : SeqOp) (s : State) : Out :=
  onClocked c.die.val s (seqIssue s c.die.val c.n.val (.dq c h o) fun s pc =>
    bodyDq s c.die.val c.n.val pc o)

/-- CQ (R294). -/
def execCq (c : CoreId) (h : Hdr) (o : SeqOp) (s : State) : Out :=
  onClocked c.die.val s (seqIssue s c.die.val c.n.val (.cq c h o) fun s pc =>
    bodyCq s c.die.val c.n.val pc h o)

/-- PQ (R244). -/
def execPq (c : CoreId) (h : Hdr) (o : SeqOp) (s : State) : Out :=
  onClocked c.die.val s (seqIssue s c.die.val c.n.val (.pq c h o) fun s pc =>
    bodyPq s c.die.val c.n.val pc h o)

/-- NOP (R79). -/
def execNop (c : CoreId) (h : Hdr) (o : SeqOp) (s : State) : Out :=
  onClocked c.die.val s (seqIssue s c.die.val c.n.val (.nop c h o) fun s pc =>
    bodyNop s pc)

/-- BR (R76). -/
def execBr (c : CoreId) (h : Hdr) (o : SeqOp) (s : State) : Out :=
  onClocked c.die.val s (seqIssue s c.die.val c.n.val (.br c h o) fun s pc =>
    bodyBr s c.die.val c.n.val pc o)

/-- CALL (R76). -/
def execCall (c : CoreId) (h : Hdr) (o : SeqOp) (s : State) : Out :=
  onClocked c.die.val s (seqIssue s c.die.val c.n.val (.call c h o) fun s pc =>
    bodyCall s c.die.val c.n.val pc o)

/-- RET (R76). -/
def execRet (c : CoreId) (h : Hdr) (o : SeqOp) (s : State) : Out :=
  onClocked c.die.val s (seqIssue s c.die.val c.n.val (.ret c h o) fun s _ =>
    bodyRet s c.die.val c.n.val)

/-- LOOP (R75). -/
def execLoop (c : CoreId) (h : Hdr) (o : SeqOp) (s : State) : Out :=
  onClocked c.die.val s (seqIssue s c.die.val c.n.val (.loop c h o) fun s pc =>
    bodyLoop s c.die.val c.n.val pc o)

/-- BRK (R75). -/
def execBrk (c : CoreId) (h : Hdr) (o : SeqOp) (s : State) : Out :=
  onClocked c.die.val s (seqIssue s c.die.val c.n.val (.brk c h o) fun s _ =>
    bodyBrk s c.die.val c.n.val)

/-- HALT (R77). -/
def execHalt (c : CoreId) (h : Hdr) (o : SeqOp) (s : State) : Out :=
  onClocked c.die.val s (seqIssue s c.die.val c.n.val (.halt c h o) fun s _ =>
    bodyHalt s)

/-- SSIG (R80). -/
def execSsig (c : CoreId) (h : Hdr) (o : SeqOp) (s : State) : Out :=
  onClocked c.die.val s (seqIssue s c.die.val c.n.val (.ssig c h o) fun s pc =>
    bodySsig s c.die.val c.n.val pc o)

/-- SWAIT (R71). -/
def execSwait (c : CoreId) (h : Hdr) (o : SeqOp) (s : State) : Out :=
  onClocked c.die.val s (seqIssue s c.die.val c.n.val (.swait c h o) fun s pc =>
    bodySwait s c.die.val c.n.val pc o)

/-- RSIG (R80, R191). -/
def execRsig (c : CoreId) (h : Hdr) (o : SeqOp) (s : State) : Out :=
  onClocked c.die.val s (seqIssue s c.die.val c.n.val (.rsig c h o) fun s pc =>
    bodyRsig s c.die.val c.n.val pc o)

/-- FENCE (R73). -/
def execFence (c : CoreId) (h : Hdr) (o : SeqOp) (s : State) : Out :=
  onClocked c.die.val s (seqIssue s c.die.val c.n.val (.fence c h o) fun s pc =>
    bodyFence s c.die.val c.n.val pc)

/-- BAR (R74). -/
def execBar (c : CoreId) (h : Hdr) (o : SeqOp) (s : State) : Out :=
  onClocked c.die.val s (seqIssue s c.die.val c.n.val (.bar c h o) fun s _ =>
    bodyBar s c.die.val c.n.val o)

/-- QPOST (R284). -/
def execQpost (c : CoreId) (h : Hdr) (o : SeqOp) (s : State) : Out :=
  onClocked c.die.val s (seqIssue s c.die.val c.n.val (.qpost c h o) fun s pc =>
    bodyQpost s c.die.val c.n.val pc o)

/-- DRAW (R284). -/
def execDraw (c : CoreId) (h : Hdr) (o : SeqOp) (s : State) : Out :=
  onClocked c.die.val s (seqIssue s c.die.val c.n.val (.draw c h o) fun s pc =>
    bodyDraw s c.die.val c.n.val pc o)

/-- RETIRE (R284). -/
def execRetire (c : CoreId) (h : Hdr) (o : SeqOp) (s : State) : Out :=
  onClocked c.die.val s (seqIssue s c.die.val c.n.val (.retire c h o) fun s pc =>
    bodyRetire s c.die.val c.n.val pc o)

/-- ACCOUNT (R285). -/
def execAccount (c : CoreId) (h : Hdr) (o : SeqOp) (s : State) : Out :=
  onClocked c.die.val s (seqIssue s c.die.val c.n.val (.account c h o) fun s pc =>
    bodyAccount s c.die.val c.n.val pc o)

/-- TAKE (R284). -/
def execTake (c : CoreId) (h : Hdr) (o : SeqOp) (s : State) : Out :=
  onClocked c.die.val s (seqIssue s c.die.val c.n.val (.take c h o) fun s pc =>
    bodyTake s c.die.val c.n.val pc o)

/-- SEND (R284). -/
def execSend (c : CoreId) (h : Hdr) (o : SeqOp) (s : State) : Out :=
  onClocked c.die.val s (seqIssue s c.die.val c.n.val (.send c h o) fun s pc =>
    bodySend s c.die.val c.n.val pc o)

/-- WAIT (R87). -/
def execWait (c : CoreId) (h : Hdr) (o : SeqOp) (s : State) : Out :=
  onClocked c.die.val s (seqIssue s c.die.val c.n.val (.wait c h o) fun s pc =>
    bodyWait s c.die.val c.n.val pc o)

/-- MMA (R99, R107). -/
def execMma (c : CoreId) (h : Hdr) (o : MmOp) (s : State) : Out :=
  onClocked c.die.val s (seqIssue s c.die.val c.n.val (.mma c h o) fun s pc =>
    bodyMm s c.die.val c.n.val pc .mma (.mma c h o) o)

/-- MMAO (R99, R110). -/
def execMmao (c : CoreId) (h : Hdr) (o : MmOp) (s : State) : Out :=
  onClocked c.die.val s (seqIssue s c.die.val c.n.val (.mmao c h o) fun s pc =>
    bodyMm s c.die.val c.n.val pc .mmao (.mmao c h o) o)

/-- MOUT (R99, R110). -/
def execMout (c : CoreId) (h : Hdr) (o : MmOp) (s : State) : Out :=
  onClocked c.die.val s (seqIssue s c.die.val c.n.val (.mout c h o) fun s pc =>
    bodyMm s c.die.val c.n.val pc .mout (.mout c h o) o)

/-- MINIT (R99). -/
def execMinit (c : CoreId) (h : Hdr) (o : MmOp) (s : State) : Out :=
  onClocked c.die.val s (seqIssue s c.die.val c.n.val (.minit c h o) fun s pc =>
    bodyMm s c.die.val c.n.val pc .minit (.minit c h o) o)

/-- VOP (R123). -/
def execVop (c : CoreId) (h : Hdr) (o : VxOp) (s : State) : Out :=
  onClocked c.die.val s (seqIssue s c.die.val c.n.val (.vop c h o) fun s pc =>
    bodyVop s c.die.val c.n.val pc (.vop c h o) o)

/-- VLP (R138). -/
def execVlp (c : CoreId) (h : Hdr) (o : VxOp) (s : State) : Out :=
  onClocked c.die.val s (seqIssue s c.die.val c.n.val (.vlp c h o) fun s pc =>
    bodyVlp s c.die.val c.n.val pc (.vlp c h o) o)

/-- VLPLD (R133). -/
def execVlpld (c : CoreId) (h : Hdr) (o : VlpldOp) (s : State) : Out :=
  onClocked c.die.val s (seqIssue s c.die.val c.n.val (.vlpld c h o) fun s pc =>
    bodyVlpld s c.die.val c.n.val pc (.vlpld c h o) o)

/-- VPERM (R141). -/
def execVperm (c : CoreId) (h : Hdr) (o : VxOp) (s : State) : Out :=
  onClocked c.die.val s (seqIssue s c.die.val c.n.val (.vperm c h o) fun s pc =>
    bodyVperm s c.die.val c.n.val pc (.vperm c h o) o)

/-- VRED (R143). -/
def execVred (c : CoreId) (h : Hdr) (o : VxOp) (s : State) : Out :=
  onClocked c.die.val s (seqIssue s c.die.val c.n.val (.vred c h o) fun s pc =>
    bodyVred s c.die.val c.n.val pc (.vred c h o) o)

/-- VOPT (R144). -/
def execVopt (c : CoreId) (h : Hdr) (o : VoptOp) (s : State) : Out :=
  onClocked c.die.val s (seqIssue s c.die.val c.n.val (.vopt c h o) fun s pc =>
    bodyVopt s c.die.val c.n.val pc (.vopt c h o) o)

/-- SFN (R148). -/
def execSfn (c : CoreId) (h : Hdr) (o : VxOp) (s : State) : Out :=
  onClocked c.die.val s (seqIssue s c.die.val c.n.val (.sfn c h o) fun s pc =>
    bodySfn s c.die.val c.n.val pc (.sfn c h o) o)

/-- SFD (R156). -/
def execSfd (c : CoreId) (h : Hdr) (o : VxOp) (s : State) : Out :=
  onClocked c.die.val s (seqIssue s c.die.val c.n.val (.sfd c h o) fun s pc =>
    bodySfd s c.die.val c.n.val pc (.sfd c h o) o)

/-- STLD (R160). -/
def execStld (c : CoreId) (h : Hdr) (o : VxOp) (s : State) : Out :=
  onClocked c.die.val s (seqIssue s c.die.val c.n.val (.stld c h o) fun s pc =>
    bodyStld s c.die.val c.n.val pc (.stld c h o) o)

/-- RSMAX (R167). -/
def execRsmax (c : CoreId) (h : Hdr) (o : VxOp) (s : State) : Out :=
  onClocked c.die.val s (seqIssue s c.die.val c.n.val (.rsmax c h o) fun s pc =>
    bodyRsmax s c.die.val c.n.val pc (.rsmax c h o) o)

/-- RSEXP (R168). -/
def execRsexp (c : CoreId) (h : Hdr) (o : VxOp) (s : State) : Out :=
  onClocked c.die.val s (seqIssue s c.die.val c.n.val (.rsexp c h o) fun s pc =>
    bodyRsexp s c.die.val c.n.val pc (.rsexp c h o) o)

/-- RSMOM (R169). -/
def execRsmom (c : CoreId) (h : Hdr) (o : VxOp) (s : State) : Out :=
  onClocked c.die.val s (seqIssue s c.die.val c.n.val (.rsmom c h o) fun s pc =>
    bodyRsmom s c.die.val c.n.val pc (.rsmom c h o) o)

/-- RSCTL (R171). -/
def execRsctl (c : CoreId) (h : Hdr) (o : VxOp) (s : State) : Out :=
  onClocked c.die.val s (seqIssue s c.die.val c.n.val (.rsctl c h o) fun s pc =>
    bodyRsctl s c.die.val c.n.val pc (.rsctl c h o) o)

end Sys2Proof.Machine
end

