-- ==== Sys2Proof/Machine/Firmware.lean ====
section
/-! DEFINITION. Firmware banks and their update (R440, R452, R453): FW_STAGE, FW_ACTIVATE, FW_QUERY. -/

namespace Sys2Proof.Machine

/-! Banks. -/

/-- The bank that FW_STAGE writes: the one that is not ACTIVE (R452). -/
def stageBank (s : State) : Nat := if (getBank s 0).state = .active then 1 else 0

/-- A bank whose flash is erased (R452). -/
def erased : Bank := Bank.none

/-- A bank's contents with bytes written at an offset; what lies between, never written, is free (log 41). -/
def flashPut (s : State) (b : List Byte) (off : Nat) (bs : List Byte) : State × List Byte :=
  let gap := off - b.length
  let fill : List Byte := (List.range gap).map fun i => BitVec.ofNat 8 (Config.freeWord (s.fresh + i)).toNat
  ({ s with fresh := s.fresh + gap }, (b ++ fill).take off ++ bs ++ b.drop (off + bs.length))

/-- The bank of a verified bundle: its header's SVN, FWREV and versions (R438). -/
def bundleBank (st : BankState) (b : List Byte) : Bank :=
  { state := st, bytes := b, svn := BitVec.ofNat 32 (leAt b 8 4), fwrev := BitVec.ofNat 16 (leAt b 12 2)
    vmin := BitVec.ofNat 8 (leAt b 14 1), vmax := BitVec.ofNat 8 (leAt b 15 1), lvmin := BitVec.ofNat 8 (leAt b 16 1)
    lvmax := BitVec.ofNat 8 (leAt b 17 1) }

/-- A bundle that carries new signer certificates puts them into the Signers region (R440), where they verify to the
root (R439). -/
def newSigners (s : State) (obj : List Byte) : State :=
  match Config.bundleSigners (objectBody obj) with
  | some (a, b) => if signerOk a && signerOk b then { s with secure := { s.secure with signers := [a, b] } } else s
  | none => s

/-- Bytes written to the bank that is staged (R452): at offset 0 the bank is erased first; once the object is whole it is
checked. -/
def stageWrite (s : State) (i off : Nat) (bs : List Byte) : State × Nat :=
  let b := if off = 0 then erased else getBank s i
  let (s, all) := flashPut s b.bytes off bs
  let part := if b.state = .empty then { erased with bytes := all } else { b with bytes := all }
  if all.length < 4096 || all.length < objectLen all then (setBank s i part, scOK)
  else
    let obj := all.take (objectLen all)
    if !objectValid s.secure 1 obj then (setBank s i erased, scSIGNATURE_INVALID)
    else if leAt obj 8 4 < s.secure.counter.toNat then (setBank s i erased, scROLLBACK_REJECTED)
    else (setBank (newSigners s obj) i (bundleBank .staged all), scOK)

/-- FW_STAGE (R452): from the window or inline.  The running bank is never written. -/
def execFwStage (p : Fin 18) : State → Out :=
  runCmd p 0x0800 fun s k =>
    let b := k.params
    let off := leAt b 4 4
    let n := leAt b 8 4
    let i := stageBank s
    let done (r : State × Nat) : State × Ans := (r.1, some (r.2, []))
    if !s.secure.recovery && i = s.secure.running then (s, some (scINVALID_PARAM, []))
    else if bits (leAt b 0 1) 0 0 = 1 then done (stageWrite s i off (slice b 16 n))
    else
      let w := leAt b 16 8
      if !woffOk s w n then (s, some (scINVALID_PARAM, []))
      else match winRead s w n with
        | (s, none) => (s, some (scINVALID_PARAM, []))
        | (s, some bs) => done (stageWrite s i off bs)

/-- COMMIT (R452, R453). -/
def fwCommit (s : State) : State × Ans :=
  let i := s.secure.running
  let b := getBank s i
  if s.secure.recovery || b.state ≠ .trial then (s, some (scINVALID_PARAM, []))
  else
    let raise := decide (s.secure.counter.toNat < b.svn.toNat)
    if raise && 1024 ≤ s.secure.raises then (s, some (scROLLBACK_REJECTED, []))
    else
      let x := s.secure
      let seq := x.counterCopies.foldl (fun m c => max m c.1) 0
      let s := if raise then
          { s with secure := { x with
              counter := b.svn, raises := x.raises + 1, counterCopies := [(seq + 1, b.svn), (seq + 1, b.svn)] } }
        else s
      let o := getBank s (1 - i)
      let s := if o.state = .active then
          setBank s (1 - i) { o with state := if o.svn.toNat < s.secure.counter.toNat then .revoked else .staged }
        else s
      (setBank s i { b with state := .active }, some (scOK, []))

/-- TRIAL (R452): the STAGED bank is to be booted once. -/
def fwTrial (s : State) : State × Ans :=
  match bankIn s .staged with
  | none => (s, some (scFW_NOT_STAGED, []))
  | some i =>
    if stalls s != [] then (s, some (scSTALL_BUSY, []))
    else
      let s := setBank s i { getBank s i with state := .trial }
      ({ s with secure := { s.secure with trialBoot := false } }, some (scOK, []))

/-- The module reset that follows TRIAL's reply (R452); a reply whose ring has no room for it is lost (log 41). -/
def trialReset (s : State) (p : Nat) : State := moduleReset (if p < 16 then writeReply s p else s) 3

/-- FW_ACTIVATE (R452). -/
def execFwActivate (p : Fin 18) (s : State) : Out :=
  match runCmd p 0x0801 (fun s k => if bits (leAt k.params 0 1) 1 0 = 0 then fwTrial s else fwCommit s) s with
  | .next t => .next (if bankIn s .trial = none && bankIn t .trial ≠ none then trialReset t p.val else t)
  | o => o

/-- A bank's state as FW_QUERY gives it (log 41). -/
def bankCode : BankState → Nat
  | .empty => 0
  | .staged => 1
  | .active => 2
  | .trial => 3
  | .revoked => 4

/-- A bank's 16 bytes of FW_QUERY (R452). -/
def bankBytes (b : Bank) : List Byte :=
  leBytes 4 (bankCode b.state) ++ leBytes 4 b.svn.toNat ++ leBytes 2 b.fwrev.toNat ++ [b.vmin, b.vmax] ++ leBytes 4 0

/-- FW_QUERY (R452). -/
def execFwQuery (p : Fin 18) : State → Out :=
  runCmd p 0x0802 fun s _ =>
    (s, some (scOK, bankBytes (getBank s 0) ++ bankBytes (getBank s 1) ++ leBytes 4 s.secure.counter.toNat
      ++ leBytes 1 s.secure.running))

end Sys2Proof.Machine
end

