-- ==== Sys2Proof/Machine/HostRegs.lean ====
section
/-! DEFINITION. Writes of registers that no row of their own commands (R10, R11): the register region, a die's power block
(R431) and the MCI block (R386, R387). -/

namespace Sys2Proof.Machine

/-- A write of a register of a die's power block, by offset (R431). -/
def powerRegWrite (s : State) (d off : Nat) (v : Word) : State :=
  match off / 8 with
  | 4 => clkselWrite s d (fget v PWR_CLKSEL_PLL = 1)
  | 5 => padRelease s d (v.toNat % 32)
  | 6 => dvfsRequest s d (fget v DVFS_CTRL_REQ)
  | k => if 32 ≤ k then s else accessWrite s (pwrBlk d + 8 * k) v

/-- A write of Q_CFG (R387, R390): its fields are written only while the queue is off. -/
def queueCfgWrite (s : State) (q : Nat) (v : Word) : State :=
  let b := queueBlk q
  let on := fget v Q_CFG_ENABLE = 1
  if queueOn s q then (if on then s else queueDisable s q)
  else
    let s := wf (wf s b Q_CFG_VEC (fget v Q_CFG_VEC)) b Q_CFG_CPLLOG2 (fget v Q_CFG_CPLLOG2)
    let s := wf s b Q_CFG_CMDLOG2 (fget v Q_CFG_CMDLOG2)
    if on then queueEnable s q else s

/-- A write of a register of a queue block (R387).  Q_CMDTAIL is DOORBELL's (log 42). -/
def queueRegWrite (s : State) (q off : Nat) (v : Word) : State :=
  match off / 8 with
  | 0 => if queueOn s q || q = 16 then s else accessWrite s (queueBlk q) v
  | 1 => if queueOn s q then s else accessWrite s (queueBlk q + 8) v
  | 2 => queueCfgWrite s q v
  | 5 => cplRelease s q v
  | 7 => accessWrite s (queueBlk q + 0x38) v
  | _ => s

/-- A write in the MCI block, by its offset in BAR0: MCI_ID and MCI_STATUS are read only (R386). -/
def bar0RegWrite (s : State) (off : Nat) (v : Word) : State :=
  if 0x1000 ≤ off && off < 0x1440 then queueRegWrite s ((off - 0x1000) / 0x40) (off % 0x40) v else s

/-- A write of the HDM decoder (R379, R381): base, size and control, at the offsets of its capability (log 153).  A committed
decoder keeps its range; COMMIT is bit 9, and takes a range of at most the window's 256 GiB. -/
def hdmWrite (s : State) (off : Nat) (v : Word) : State :=
  modAttach s fun a =>
    match off with
    | 0x10 => if a.hdmCommitted then a else { a with hdmBase := v }
    | 0x18 => if a.hdmCommitted then a else { a with hdmSize := v }
    | 0x20 =>
      { a with hdmCommitted := v.getLsbD 9 && (a.hdmCommitted || (decide (a.hdmSize ≠ 0) && decide (a.hdmSize.toNat ≤ 2 ^ 38))) }
    | _ => a

/-- A write of the MSI-X table, by offset in BAR4 (R379; log 153). -/
def msixWrite (s : State) (off : Nat) (v : Word) : State :=
  if off < 16 * 64 && off % 8 = 0 then modAttach s fun a => { a with msix := tset a.msix (off / 8) v } else s

/-- A write in configuration space (R381): its structures hold nothing that the manual has software write; before B4 completes
it is answered with Retry Status (R441). -/
def configWrite (s : State) : State := if s.secure.stage < 4 then emit s .retryStatus else s

/-- REGISTER_WRITE (R10, R11). -/
def execRegisterWrite (sp : RegSpace) (addr : Nat) (v : Word) (s : State) : Out :=
  match sp with
  | .region => onUnit (addr / 2 ^ 49) addr v s (regionRegWrite s addr v)
  | .power d => onDie d.val s (powerRegWrite s d.val addr v)
  | .bar0 => .next (bar0RegWrite s addr v)
  | .config => .next (configWrite s)
  | .bar2 => .next (hdmWrite s addr v)
  | .bar4 => .next (msixWrite s addr v)

end Sys2Proof.Machine
end

