-- ==== Sys2Proof/Machine/Recovery.lean ====
section
/-! DEFINITION. Recovery (R354, R365, R367, R372-R376) and guardians (R363, R364): RESTORE, FILL_START, FILL_COMPLETE,
MIRROR_ASSIGN. -/

namespace Sys2Proof.Machine

/-! Applying a checkpoint (R354). -/

/-- A checkpoint written back: headers, mark table, SC_HEAD and SC_TAIL, and the live record with PHASE = 5 and its counters
left as they are. -/
def applyCkpt (s : State) (x : StallSt) (d : Nat) (img : List Byte) : State :=
  let nq := leAt img 16 4
  let live := putAt (slice img 64 192) 36 (leBytes 2 5)
  let s := (List.range nq).foldl (fun s j =>
    ownWrite s (leWord (slice img (512 + 128 * j) 8)) (slice img (576 + 128 * j) 64)) s
  let s := ownWrite s (leWord (slice live 56 8)) (slice img (512 + 128 * nq) (32 * leAt img 20 4))
  let s := (List.range 16).foldl (fun s c =>
    let b := clBlk d c
    let h := leAt img (256 + 16 * c) 3
    let t := leAt img (264 + 16 * c) 3
    wf (wf (wf s b SC_HEAD_HEAD h) b SC_TAIL_TAIL t) b SC_STATUS_USED (scUsed h t)) s
  poke (poke s d (jobLedger x) (slice live 0 64)) d (jobLedger x + 160) (slice live 160 32)

/-- Whether an image is a whole checkpoint of a step (R353). -/
def ckptOf (img : List Byte) (step : Nat) : Bool := leAt img 0 1 == 1 && leAt img 8 8 == step

/-- Checkpoints applied. -/
def applyAll (s : State) (x : StallSt) (imgs : List (Nat × List Byte)) : State :=
  imgs.foldl (fun s p => applyCkpt s x p.1 p.2) s

/-! Reading the guardian's copies. -/

/-- What a group of reads comes to. -/
inductive Fetch (α : Type) where
  | waiting
  | failed
  | ok (a : α)

/-- Bytes that the guardian keeps, read by unit number `u` of die `d`. -/
def guardRead (s : State) (u g d area item off len : Nat) : State × Fetch (List Byte) :=
  match s.torter.guardian with
  | none => (s, .failed)
  | some m =>
    match readAway s d u (guardAddr s m.toNat g area item off) len with
    | (s, .error .waiting) => (s, .waiting)
    | (s, .error _) => (s, .failed)
    | (s, .ok b) => (s, .ok b)

/-- Two results together: one failure decides, else one that is missing. -/
def Fetch.both {α β γ : Type} (f : α → β → γ) : Fetch α → Fetch β → Fetch γ
  | .ok a, .ok b => .ok (f a b)
  | .failed, _ => .failed
  | _, .failed => .failed
  | _, _ => .waiting

/-- A group of reads, all of them issued. -/
def fetchAll {α β : Type} (f : State → α → State × Fetch β) : State → List α → State × Fetch (List β)
  | s, [] => (s, .ok [])
  | s, a :: l =>
    let (s, r) := f s a
    let (s, rs) := fetchAll f s l
    (s, Fetch.both List.cons r rs)

/-- Segments of every extent that a fast restore copies back (R373): extent and segment. -/
def changedSegs (s : State) (x : StallSt) (pars : List Nat) : List (Nat × Nat) :=
  ((extents x).map fun i =>
    ((List.range (extSegs (extent x i))).filter fun j => pars.any fun p => marked s (extent x i) p j).map fun j => (i, j)).flatten

/-- A checkpoint of step `b` on a die: the local slot, else the guardian's (R373). -/
def fetchCkpt (g b : Nat) (x : StallSt) (s : State) (d : Nat) : State × Fetch (Nat × List Byte) :=
  match ckptRead s x d b with
  | (s, some img) => if ckptOf img b then (s, .ok (d, img)) else away s d
  | (s, none) => away s d
where
  /-- The guardian's copy. -/
  away (s : State) (d : Nat) : State × Fetch (Nat × List Byte) :=
    match guardRead s (unitBack g) g d 2 (2 * d + b % 2) 0 (2 ^ 20) with
    | (s, .ok img) => if ckptOf img b then (s, .ok (d, img)) else (s, .failed)
    | (s, .waiting) => (s, .waiting)
    | (s, .failed) => (s, .failed)

/-- Segments written at their places. -/
def putSegs (s : State) (x : StallSt) (l : List ((Nat × Nat) × List Byte)) : State :=
  l.foldl (fun s p => poke s (extDie (extent x p.1.1)) (extLocal (extent x p.1.1) + 65536 * p.1.2) p.2) s

/-! RESTORE (R373, R375). -/

/-- What bringing a module to step `b` comes to: still reading, no state to restore, or the checkpoint images applied. -/
abbrev Restored := Fetch (List (Nat × List Byte))

/-- The fast path (R373). -/
def restoreFast (s : State) (g b v : Nat) (x : StallSt) : State × Restored :=
  let pars := if b = v then [v + 1] else [v, v + 1]
  let segs := changedSegs s x pars
  let (s, r) := fetchAll (fun s (p : Nat × Nat) =>
    let w := extent x p.1
    match guardRead s (unitBack g) g (extDie w) 3 (2 * p.1 + b % 2) (65536 * p.2) (segBytes w p.2) with
    | (s, .ok bs) => (s, Fetch.ok (p, bs))
    | (s, .waiting) => (s, .waiting)
    | (s, .failed) => (s, .failed)) s segs
  let (s, c) := fetchAll (fetchCkpt g b x) s (stallDies s x)
  match Fetch.both Prod.mk r c with
  | .waiting => (s, .waiting)
  | .failed => (forgetUnit s (unitBack g), .failed)
  | .ok (l, imgs) => (applyAll (putSegs (forgetUnit s (unitBack g)) x l) x imgs, .ok imgs)

/-- The generation that a fast restore reads holds step `b` (R360, R367). -/
def genHolds (s : State) (g b : Nat) (x : StallSt) : State × Fetch Bool :=
  if x.protect = [] then (s, .ok true)
  else match guardRead s (unitBack g) g (jobTallyDie x) 1 (b % 2) 0 8 with
  | (s, .ok w) => (s, .ok (leNat w == b))
  | (s, .waiting) => (s, .waiting)
  | (s, .failed) => (s, .failed)

/-- A segment of a snapshot: its place, its offset in the slot, and where the guardian's generation has it, if it does. -/
structure SnapSeg where
  die : Nat
  loc : Nat
  len : Nat
  off : Nat
  area : Nat
  item : Nat
  place : Nat
  inGuard : Bool
  deriving DecidableEq, Repr

/-- Segments of 64 KiB of one piece of a slot (R361, R373). -/
def pieceSegs (p : Nat × Nat × Nat) (off area item : Nat) (inGuard : Bool) : List SnapSeg :=
  (List.range (ceilDiv p.2.2 65536)).map fun j =>
    ⟨p.1, p.2.1 + 65536 * j, min 65536 (p.2.2 - 65536 * j), off + 65536 * j, area, item, 65536 * j, inGuard⟩

/-- Segments of the extents given, from an offset of the slot, and then of the checkpoint slots (R361). -/
def snapSegs (s : State) (x : StallSt) (b : Nat) : Nat → List Nat → List SnapSeg
  | off, [] =>
    ((List.range (stallDies s x).length).map fun k =>
      let d := (stallDies s x).getD k 0
      pieceSegs (d, ckptAt x b, 2 ^ 20) (off + 2 ^ 20 * k) 2 (2 * d + b % 2) true).flatten
  | off, i :: l =>
    let w := extent x i
    pieceSegs (extDie w, extLocal w, extBytes w) off 3 (2 * i + b % 2) (mirrored x i)
      ++ snapSegs s x b (off + extBytes w) l

/-- A segment of a snapshot read (R373): from the window slot; one that reads as poison there from the guardian's generation,
where that holds the step, and otherwise it waits until the host has written its own copy into the window (log 152). -/
def snapRead (g b base : Nat) (x : StallSt) (s : State) (q : SnapSeg) : State × Fetch (SnapSeg × List Byte) :=
  match winRead s (base + q.off) q.len with
  | (s, some bs) => (s, .ok (q, bs))
  | (s, none) =>
    if !q.inGuard then (s, .waiting)
    else match genHolds s g b x with
      | (s, .ok true) =>
        (match guardRead s (unitBack g) g q.die q.area q.item q.place q.len with
        | (s, .ok bs) => (s, .ok (q, bs))
        | (s, _) => (s, .waiting))
      | (s, _) => (s, .waiting)

/-- The snapshot set copied from a window offset to its places, and its checkpoints applied (R373); a mirror that the set
does not hold cannot be brought back this way (R376). -/
def restoreWindow (s : State) (g off b : Nat) (x : StallSt) : State × Restored :=
  let segs := snapSegs s x b 0 ((extents x).filter (inSnapshot x))
  if !(extents x).all (inSnapshot x) || (winRange s off (segs.foldl (fun n q => n + q.len) 0)).isNone then (s, .failed)
  else match fetchAll (snapRead g b off x) s segs with
    | (s, .ok l) =>
      let s := l.foldl (fun s p => poke s p.1.die p.1.loc p.2) (forgetUnit s (unitBack g))
      let imgs := (stallDies s x).map fun d => (d, peek s d (ckptAt x b) (2 ^ 20))
      if imgs.all fun p => ckptOf p.2 b then (applyAll s x imgs, .ok imgs) else (s, .failed)
    | (s, .waiting) => (s, .waiting)
    | (s, .failed) => (s, .failed)

/-- A surviving module brought to step `b` (R367, R373): fast where every extent of the stall is a mirror whose generations
are filled. -/
def restoreState (s : State) (g b v : Nat) (x : StallSt) : State × Restored :=
  let slot (s : State) : State × Restored :=
    match indexOf (fun a : SnapSlot => a.step == some b && a.complete) x.snaps with
    | some i => if b < v then restoreWindow s g (jobSnapWin x i) b x else (s, .failed)
    | none => (s, .failed)
  if (b = v || b + 1 = v) && allMirror s g x && (extents x).all (mirrored x) then
    match genHolds s g b x with
    | (s, .waiting) => (s, .waiting)
    | (s, .ok true) => restoreFast s g b v x
    | (s, _) => slot (forgetUnit s (unitBack g))
  else slot s

/-- The stall after its module has been brought to step `b` (R373). -/
def restoreDone (s : State) (g b v : Nat) : State :=
  match getStall s g with
  | none => s
  | some x =>
    setStall (clearDirty s x (b + 1)) g
      (some { x with
        last := some b, restored := true, restoring := some b, replayTo := v, stallLast := some v, proved := false })

/-- A free word for every module of a stall but this one: the digests that they send to the lead (log 38). -/
def drawDigests : Nat → State → List Word × State
  | 0, s => ([], s)
  | n + 1, s =>
    let (w, s) := drawFree s
    let (ws, s) := drawDigests n s
    (w :: ws, s)

/-- D_step of a restore to `b = v` (R356, R375): the lead forms it over its own D_mod and those that the other modules write to
it; another module writes its D_mod to the lead and has D_step back, whose value is the lead's (log 38). -/
def proofDigest (s : State) (g v : Nat) (x : StallSt) (dmod : Word) (loss : BitVec 32) : Word × State :=
  if isOwn s (leadMod x) then
    let (others, s) := drawDigests (popcount 512 (hasMod x) - 1) s
    let ds := stallDigest s x v loss dmod others
    (ds, sendStep s g x ds loss)
  else drawFree (emit s (.digest g dmod))

/-- The proof by digest of a restore to `b = v` (R375): its D_step, where it can be formed and where it is not the recorded
one the restore does not stand. -/
def restoreProof (s : State) (g v : Nat) (x : StallSt) (imgs : List (Nat × List Byte)) (old : BitVec 32 × Word) :
    State × Ans :=
  match moduleDigest s x v imgs with
  | (s, none) => (modStall s g fun y => { y with restored := false }, some (scSTATE_LOST, []))
  | (s, some dmod) =>
    let (ds, s) := proofDigest s g v x dmod old.1
    if ds = old.2 then (proofPassed s g ((getStall s g).getD x) v, some (scOK, []))
    else (modStall s g fun y => { y with restored := false }, some (scREPLAY_MISMATCH, wordBytes old.2 ++ wordBytes ds))

/-- The stall's last closed step v in a recovery (R366, R367): what this module had closed, or one less where another module
of the stall has not returned STEP_END for it (log 148). -/
def lastOfStall (s : State) (g : Nat) (x : StallSt) : Option Nat :=
  match x.stallLast with
  | some v => some v
  | none => x.lastAtHold.bind fun v =>
    if manyMods x && !Config.peersClosed g s.fresh then (if v = 0 then none else some (v - 1)) else some v

/-- The recorded loss pair and D_step of step `v`, which a restore to `b = v` needs (R375). -/
def restoreRecord (s : State) (g b v : Nat) (x : StallSt) : State × Fetch (Option (BitVec 32 × Word)) :=
  if b ≠ v then (s, .ok none)
  else match findRecord x tkCLOSE v with
    | none => (s, .failed)
    | some (o, n) =>
      match recordGet s g x o n with
      | (s, .waiting) => (s, .waiting)
      | (s, .corrupt) => (s, .failed)
      | (s, .bytes r) => (s, .ok (some (closeValues r)))

/-- RESTORE (R367, R373, R375). -/
def execRestore (p : Fin 18) : State → Out :=
  runCmd p 0x0405 fun s k =>
    let g := k.stall.toNat
    let b := leAt k.params 0 8
    match namedStall s k with
    | none => (s, some (scNO_STALL, []))
    | some x =>
      if x.mode ≠ .held || x.job = [] || x.openStep.isSome then (s, some (scINVALID_PARAM, []))
      else match lastOfStall s g x with
        | none => (s, some (scSTATE_LOST, []))
        | some v =>
          let x := { x with stallLast := some v }
          let s := setStall s g (some x)
          match restoreRecord s g b v x with
          | (s, .waiting) => (s, none)
          | (s, .failed) => (s, some (scTALLY_CORRUPT, []))
          | (s, .ok old) =>
            match restoreState s g b v x with
            | (s, .waiting) => (s, none)
            | (s, .failed) => (s, some (scSTATE_LOST, []))
            | (s, .ok imgs) =>
              let s := restoreDone s g b v
              match old with
              | none => (s, some (scOK, []))
              | some o => restoreProof s g v ((getStall s g).getD x) imgs o

/-! Fills (R372, R376). -/

/-- Reads that a fill sends to the guardian first (R372): the Tally area, the generation word and the checkpoint slots of the
generation of `b`: die, area, item, bytes. -/
def fillReads (s : State) (x : StallSt) (b : Nat) : List (Nat × Nat × Nat × Nat) :=
  [(jobTallyDie x, 0, 0, jobTallyBytes x), (jobTallyDie x, 1, b % 2, 8)]
    ++ (stallDies s x).map fun d => (d, 2, 2 * d + b % 2, 2 ^ 20)

/-- One of those reads: sent, or what it brought. -/
def fillRead (g : Nat) (s : State) (r : Nat × Nat × Nat × Nat) : State × Fetch (List Byte) :=
  if r.2.2.2 = 0 then (s, .ok []) else guardRead s unitFill g r.1 r.2.1 r.2.2.1 0 r.2.2.2

/-- Whether FILL_START's parameters are those of the stall and of the module's logical number (R372; log 39). -/
def fillParamsOk (s : State) (g : Nat) (x : StallSt) (b : List Byte) : Bool :=
  let y := stallOfParams (slice b 16 80)
  isOwn s (leAt b 0 2) && leAt b 16 1 == g && y.algrev == x.algrev && y.dies == x.dies && y.mods == x.mods
    && (x.job == [] || x.job == slice b 96 128) && x.openStep.isNone

/-- FILL_START (R372): the stall is held until its recovery ends; the reply comes when the fill is complete (R370). -/
def execFillStart (p : Fin 18) : State → Out :=
  runCmd p 0x0403 fun s k =>
    let g := k.stall.toNat
    let b := leAt k.params 8 8
    match namedStall s k with
    | none => (s, some (scNO_STALL, []))
    | some x =>
      if s.torter.fill.any fun f => f.path == p then (s, none)
      else if s.torter.fill.isSome then (s, some (scFILL_BUSY, []))
      else if !fillParamsOk s g x k.params then (s, some (scINVALID_PARAM, []))
      else match if x.job = [] then jobRefusal s x (slice k.params 96 128) else none with
        | some st => (s, some (st, []))
        | none =>
          let y : StallSt := if x.job = [] then x.withJob (slice k.params 96 128) else x
          let s := setStall (jobRegs s y) g
            (some { y with mode := .held, openAtHold := true, lastAtHold := y.last, stallLast := none, spares := [lmod s 0] })
          let s := (fetchAll (fillRead g) s (fillReads s y b)).1
          (modTorter s fun t => { t with fill := some ⟨lmod s 0, g, b, p⟩ }, none)

/-- Records found in a Tally area, oldest first: serial number, kind, step, offset, length; `fuel` bounds the steps. -/
def scanRecords : Nat → Nat → List Byte → List (Nat × Nat × Nat × Nat × Nat)
  | 0, _, _ => []
  | fuel + 1, o, b =>
    if b.length < 64 then []
    else if recordOk b then
      (leAt b 16 8, leAt b 1 1, leAt b 8 8, o, leAt b 4 4) :: scanRecords fuel (o + leAt b 4 4) (b.drop (leAt b 4 4))
    else scanRecords fuel (o + 64) (b.drop 64)

/-- A record put in the order of serial numbers. -/
def serialInsert (r : Nat × Nat × Nat × Nat × Nat) : List (Nat × Nat × Nat × Nat × Nat) → List (Nat × Nat × Nat × Nat × Nat)
  | [] => [r]
  | q :: l => if r.1 ≤ q.1 then r :: q :: l else q :: serialInsert r l

/-- The records of a Tally area in the order of their serial numbers. -/
def areaRecords (area : List Byte) : List (Nat × Nat × Nat × Nat × Nat) :=
  (scanRecords (area.length / 64 + 1) ringBase (area.drop ringBase)).foldr serialInsert []

/-- The methods of extents after one change that a CONFIG record of step `k` names, on a module brought to step `b` (R359): it
is in force where a later close has made it, and pending otherwise. -/
def applyChange (b k : Nat) (ms : List (BitVec 2)) (i m : Nat) : List (BitVec 2) :=
  let now := ms.getD i 2
  ms.set i (if m = 1 then (if k < b then 1 else if now = 1 || now = 0 then 1 else 3)
    else if k < b || now = 2 || now = 3 then 2 else 0)

/-- Changes that a CONFIG record lists (R348). -/
def configChanges (r : List Byte) : List (Nat × Nat) :=
  (List.range (leAt r 80 8)).map fun i => (leAt r (88 + 8 * i) 4, leAt r (92 + 8 * i) 4)

/-- The stall with the records of a Tally area, on a module filled at step `b` (R359, R364, R372). -/
def StallSt.withTally (x : StallSt) (area : List Byte) (b : Nat) : StallSt :=
  let rs := areaRecords area
  let top := rs.getLastD (0, 0, 0, ringBase, 0)
  let close (r : Nat × Nat × Nat × Nat × Nat) : CloseRec :=
    let b := area.drop r.2.2.2.1
    ⟨r.2.2.1, (closeValues b).1, (closeValues b).2, leWord (slice b 72 8), BitVec.ofNat 2 (leAt b 84 1), leAt b 85 1 == 1, none⟩
  let configs := rs.filter fun r => r.2.1 == tkCONFIG
  let fixed := (extents x).map fun i => if extMethod (extent x i) = 1 then (1 : BitVec 2) else 2
  let methods := configs.foldl (fun ms r =>
    (configChanges (area.drop r.2.2.2.1)).foldl (fun ms c => applyChange b r.2.2.1 ms c.1 c.2) ms) fixed
  let shared := configs.any fun r => leAt area (r.2.2.2.1 + 72) 8 == 1
  StallSt.covered { x with
    serial := top.1 + 1, tallyPos := top.2.2.2.1 + top.2.2.2.2, records := rs.map (·.2), methods := methods
    period := if shared && x.period == 0 then 16 else x.period
    closes := ((rs.filter fun r => r.2.1 == tkCLOSE).map close).reverse } shared

/-- The guardian's copy of the Tally area as a fill has read it, with zeros for what was refused or poisoned. -/
def guardTally (s : State) (g : Nat) (x : StallSt) : List Byte :=
  match s.torter.guardian with
  | none => []
  | some m =>
    let a := guardAddr s m.toNat g 0 0 0
    let n := jobTallyBytes x
    match (asksOf s unitFill).find? fun q => !q.write && q.addr == a && q.len == n with
    | none => []
    | some q =>
      match answersOf s q.die unitFill q.tag q.n with
      | none => []
      | some l => (((pieces (n / 256 + 2) a n).zip l).map fun p =>
          if p.2.1 = 0 then p.2.2 else List.replicate p.1.2 0).flatten

/-- The host's copy of the Tally area in the window, with zeros for the pages that read as poison. -/
def hostTally (s : State) (x : StallSt) : List Byte :=
  ((List.range (jobTallyBytes x / 4096)).map fun i =>
    ((winRead s (jobTallyWin x + 4096 * i) 4096).2).getD (List.replicate 4096 0)).flatten

/-- Two copies of a Tally area joined (R351): the JOB record and each record from the first copy, or from the second where
the first has none that checks in its place. -/
def joinTally (a h : List Byte) : Option (List Byte) :=
  let base := if recordOk a then some a else if recordOk h then some (h.take ringBase ++ (a ++ h.drop a.length).drop ringBase) else none
  base.map fun t =>
    let good := areaRecords t
    (areaRecords h).foldl (fun t r =>
      let free := !(good.any fun q => decide (q.2.2.2.1 < r.2.2.2.1 + r.2.2.2.2) && decide (r.2.2.2.1 < q.2.2.2.1 + q.2.2.2.2))
      if free then putAt t r.2.2.2.1 (slice h r.2.2.2.1 r.2.2.2.2) else t) t

/-- The Tally area for a fill (R351, R372). -/
def fillTally (s : State) (g : Nat) (x : StallSt) : Option (List Byte) :=
  let a := guardTally s g x
  joinTally a (hostTally s x)

/-- The state of step `b` on the fast path of a fill: from the guardian's generation (R367, R372). -/
def fillFast (s : State) (g b : Nat) (x : StallSt) : State × Restored :=
  let gen (s : State) : State × Fetch (List Byte) := fillRead g s (jobTallyDie x, 1, b % 2, 8)
  let img (s : State) (d : Nat) : State × Fetch (Nat × List Byte) :=
    match fillRead g s (d, 2, 2 * d + b % 2, 2 ^ 20) with
    | (s, .ok i) => (s, if ckptOf i b then .ok (d, i) else .failed)
    | (s, .waiting) => (s, .waiting)
    | (s, .failed) => (s, .failed)
  let ext (s : State) (i : Nat) : State × Fetch (Nat × List Byte) :=
    match fillRead g s (extDie (extent x i), 3, 2 * i + b % 2, extBytes (extent x i)) with
    | (s, .ok l) => (s, .ok (i, l))
    | (s, .waiting) => (s, .waiting)
    | (s, .failed) => (s, .failed)
  if !allMirror s g x || !(extents x).all (mirrored x) then (s, .failed)
  else match gen s with
    | (s, .waiting) => (s, .waiting)
    | (s, .failed) => (s, .failed)
    | (s, .ok w) =>
      if leNat w ≠ b then (s, .failed)
      else
        let (s, imgs) := fetchAll img s (stallDies s x)
        let (s, exts) := fetchAll ext s (extents x)
        match imgs, exts with
        | .ok imgs, .ok exts =>
          let s := exts.foldl (fun s p => poke s (extDie (extent x p.1)) (extLocal (extent x p.1)) p.2) s
          let s := imgs.foldl (fun s p => poke s p.1 (ckptAt x b) p.2) s
          (applyAll s x imgs, .ok imgs)
        | .waiting, _ => (s, .waiting)
        | _, .waiting => (s, .waiting)
        | _, _ => (s, .failed)

/-- The state of step `b` for a fill: the fast path, else the snapshot that the host has written into slot 0 (log 37). -/
def fillState (s : State) (g b : Nat) (x : StallSt) : State × Restored :=
  match fillFast s g b x with
  | (s, .failed) => restoreWindow s g (jobSnapWin x 0) b x
  | r => r

/-- Bytes of a fill that remain (R372): those asked of the guardian and not brought yet, and, while the mirrors of the stall
do not cover every extent, those of the snapshot set, which are copied last. -/
def fillRemaining (s : State) : Nat :=
  match s.torter.fill with
  | none => 0
  | some f =>
    let asked := ((asksOf s unitFill).filter fun q => (answersOf s q.die q.sunit q.tag q.n).isNone).foldl (fun n q => n + q.len) 0
    match getStall s f.stall with
    | none => asked
    | some x => if (extents x).all (isMirror x) then asked else asked + piecesLen (snapPieces s x f.step)

/-- FILL_QUERY (R372, R399). -/
def execFillQuery (p : Fin 18) : State → Out :=
  runCmd p 0x0404 fun s _ => (s, some (scOK, leBytes 8 (fillRemaining s) ++ leBytes 8 (b2n s.torter.fill.isSome)))

/-- A stall whose ward and guardian share a feed (R364). -/
def shareFeed (s : State) (g : Nat) (x : StallSt) : State :=
  let y := StallSt.covered { x with sharedFeed := true, period := if x.period = 0 then 16 else x.period } true
  let s := noteRecord (setStall s g (some y)) g tkCONFIG (x.last.getD 0) (configBody y [])
  warnEvent s g

/-- A stall that has just been given a job, or been filled, under an assignment accepted on a shared feed (R364, R393). -/
def shareLater (s : State) (g : Nat) : State :=
  match getStall s g with
  | some x => if s.torter.sharedFeed then shareFeed s g x else s
  | none => s

/-- JOB_CONFIG (R364, R405). -/
def execJobConfig (p : Fin 18) : State → Out :=
  runCmd p 0x0102 fun s k =>
    let g := k.stall.toNat
    match namedStall s k with
    | none => (s, some (scNO_STALL, []))
    | some x =>
      match jobRefusal s x k.params with
      | some st => (s, some (st, []))
      | none =>
        let x := x.withJob k.params
        let (s, x) := appendJob (jobRegs s x) g x (jobBody s x)
        (extendMr (shareLater (setStall s g (some x)) g) 4 0x11 k.params, some (scOK, []))

/-- A fill ends and FILL_START replies. -/
def fillEnd (s : State) (f : FillSt) (st : Nat) : State :=
  let s := modTorter (forgetUnit s unitFill) fun t => { t with fill := none }
  answer (modStall s f.stall fun y => { y with busy := none }) f.path.val st []

/-- A module filled to step `b` (R372-R376): the stall stands at `b`, and where no step is to be replayed the proof by digest
runs here as on every module (R375). -/
def fillDone (s : State) (f : FillSt) (v : Nat) (imgs : List (Nat × List Byte)) (x : StallSt) : State :=
  let s := shareLater (restoreDone s f.stall f.step v) f.stall
  if f.step ≠ v then fillEnd s f scOK
  else match x.closes.find? fun c => c.step == v with
    | none => fillEnd s f scTALLY_CORRUPT
    | some c =>
      match restoreProof s f.stall v ((getStall s f.stall).getD x) imgs (c.loss, c.dstep) with
      | (s, some (st, _)) => fillEnd s f (if st = scSTATE_LOST then st else scOK)
      | (s, none) => s

/-- The Tally area of a fill written at the owner and in the window (R346, R372). -/
def putTally (s : State) (x : StallSt) (area : List Byte) : State :=
  let s := poke s (jobTallyDie x) (jobTallyBase x) area
  (winWrite s (jobTallyWin x) area).getD s

/-- FILL_COMPLETE (R372): what was read has arrived.  What the records found show to be needed besides is asked for now, and
the fill waits on. -/
def execFillComplete (s : State) : Out :=
  .next <|
    match s.torter.fill with
    | none => s
    | some f =>
      match unitStatuses s unitFill, getStall s f.stall with
      | some _, some x =>
        (match fillTally s f.stall x with
        | none => fillEnd s f scTALLY_CORRUPT
        | some area =>
          let y := x.withTally area f.step
          let y := { y with lastAtHold := some (y.closes.foldl (fun m c => max m c.step) 0) }
          let v := max f.step ((lastOfStall s f.stall y).getD 0)
          match fillState s f.stall f.step y with
          | (s, .waiting) => s
          | (s, .failed) => fillEnd s f scSTATE_LOST
          | (s, .ok imgs) => fillDone (setStall (putTally s x area) f.stall (some y)) f v imgs y)
      | _, _ => s

/-! MIRROR_ASSIGN (R363-R365). -/

/-- Feed identifier of a module. -/
def feedOf (s : State) (m : Nat) : BitVec 16 := if isOwn s m then s.torter.feed else Config.peerFeed m s.fresh

/-- Algorithm revision of a module. -/
def peerRev (s : State) (m : Nat) : Byte := if isOwn s m then s.secure.variant.algrev else Config.peerAlgrev m s.fresh

/-- Bytes of a module's guard areas that its other wards leave (R363). -/
def roomOf (s : State) (m ward : Nat) : Nat :=
  if isOwn s m then
    (stalls s).foldl (fun n x => n + jobNat x.2 92 4 * 2 ^ 30) 0
      - (s.torter.wards.filter fun w => w.toNat != ward).foldl (fun n w => n + Config.wardNeed w.toNat s.fresh) 0
  else Config.guardRoom m s.fresh

/-- Bytes that a ward needs of its guardian (R363). -/
def needOf (s : State) (m : Nat) : Nat :=
  if isOwn s m then ((stalls s).filter fun x => x.2.job != []).foldl (fun n x => n + guardNeed s x.2) 0
  else Config.wardNeed m s.fresh

/-- What rejects an assignment, in the order of R363's table. -/
def assignRefusal (s : State) (w g : Nat) (force : Bool) : Option Nat :=
  if w = g || (topoPlace s w).isNone || (topoPlace s g).isNone then some scINVALID_PARAM
  else if peerRev s g ≠ peerRev s w then some scINCOMPATIBLE_REVISION
  else if roomOf s g w < needOf s w then some scGUARD_FULL
  else if feedOf s w = feedOf s g && !force then some scPARTNER_SAME_FEED
  else none

/-- Bytes of the module sent to a new guardian; poison is not sent (R377). -/
def sendNew (s : State) (d m g area item off l n : Nat) : State :=
  match ctlRead s d l n with
  | (s, some bs) => if bs = [] then s else askRange s d unitAssign true (guardAddr s m g area item off) n bs
  | (s, none) => s

/-- A stall's records, checkpoint slots and mirrors sent to a new guardian (R365): both generations hold the last closed
step, or are incomplete while a step is open (log 40). -/
def sendStall (s : State) (m g : Nat) (x : StallSt) : State :=
  if x.job = [] then s
  else
    let d := jobTallyDie x
    let rec' (s : State) (o n : Nat) : State := sendNew s d m g 0 0 o (jobTallyBase x + o) n
    let s := rec' s 0 (leAt (peek s d (jobTallyBase x) 8) 4 4)
    let s := x.records.foldl (fun s r => rec' s r.2.2.1 r.2.2.2) s
    let s := (stallDies s x).foldl (fun s e =>
      sendNew (sendNew s e m g 2 (2 * e) 0 (ckptAt x 0) (2 ^ 20)) e m g 2 (2 * e + 1) 0 (ckptAt x 1) (2 ^ 20)) s
    let s := ((extents x).filter (isMirror x)).foldl (fun s i =>
      let w := extent x i
      (List.range (extSegs w)).foldl (fun s j =>
        let one (s : State) (par : Nat) : State :=
          sendNew s (extDie w) m g 3 (2 * i + par) (65536 * j) (extLocal w + 65536 * j) (segBytes w j)
        one (one s 0) 1) s) s
    let word : Word := match x.openStep, x.last with
      | none, some v => BitVec.ofNat 64 v
      | _, _ => 0xFFFFFFFFFFFFFFFF
    let put (s : State) (par : Nat) : State := askRange s d unitAssign true (guardAddr s m g 1 par 0) 8 (wordBytes word)
    put (put s 0) 1

/-- The mirrors that a new guardian has been filled with (R365): those of a fixed method that no close had filled yet are filled
too. -/
def StallSt.assigned (x : StallSt) : StallSt :=
  { x with methods := (extents x).map fun i =>
      let m := x.methods.getD i 2
      if m = 3 && extMethod (extent x i) = 1 then 1 else m }

/-- The assignment is over (R364, R365): the new guardian has all copies and serves from now on; one that refuses them, or does
not acknowledge them, is lost, with the code of the error met. -/
def assignDone (s : State) (m : BitVec 9) (bad : Option Nat) : State :=
  let same := s.torter.assignShared
  let s := modTorter (forgetUnit s unitAssign) fun t => { t with assigning := none, guardian := some m, sharedFeed := same }
  let s := (stalls s).foldl (fun s p =>
    let x := p.2.assigned
    if x.job = [] then s
    else if same then shareFeed s p.1 x else setStall s p.1 (some { x with sharedFeed := false })) s
  match bad with
  | some code => guardianLost s 0 code
  | none => s

/-- MIRROR_ASSIGN (R363-R365, R446): on the ward the new guardian is filled before the reply; on the guardian the ward is
recorded; any other module notes nothing.  Whether ward and guardian share a feed is settled at acceptance (R364). -/
def execMirrorAssign (p : Fin 18) : State → Out :=
  runCmd p 0x0401 fun s k =>
    let w := leAt k.params 0 2
    let g := leAt k.params 2 2
    let reply (s : State) : State × Ans := (extendMr s 5 0x22 k.params, some (scOK, []))
    match s.torter.assigning with
    | some m =>
      match unitStatuses s unitAssign with
      | none => (s, none)
      | some l => reply (assignDone s m ((l.find? (· != 0)).map fun st => if st = 2 then 2 else 4))
    | none =>
      match assignRefusal s w g (k.flags.getLsbD 0) with
      | some st => (s, some (st, []))
      | none =>
        if isOwn s w then
          let s := modTorter s fun t => { t with assignShared := feedOf s w == feedOf s g }
          let s := (stalls s).foldl (fun s x => sendStall s g x.1 x.2) s
          let s := modTorter s fun t => { t with assigning := some (BitVec.ofNat 9 g) }
          match unitStatuses s unitAssign with
          | some [] => reply (assignDone s (BitVec.ofNat 9 g) none)
          | _ => (s, none)
        else if isOwn s g then
          let l := s.torter.wards.filter fun m => m.toNat != w
          reply (modTorter s fun t => { t with wards := l ++ [BitVec.ofNat 9 w] })
        else reply (modTorter s fun t => { t with wards := t.wards.filter fun m => m.toNat != w })

/-- The new guardian does not acknowledge what fills it (R346, R365): it is lost, and MIRROR_ASSIGN replies. -/
def assignTimeout (s : State) (m : BitVec 9) : State :=
  let s := assignDone s m (some 6)
  match s.torter.modBusy with
  | none => s
  | some p =>
    let s := modTorter s fun t => { t with modBusy := none }
    match (getPath s p.val).current with
    | some k => answer (extendMr s 5 0x22 k.params) p.val scOK []
    | none => s

/-- TALLY_ACK_TIMEOUT (R346, R365, R376, R474): at the owner the append fails; at the guardian the guardian is lost, and
with it the source of a fill that reads from it.  An append that waits for nothing is complete. -/
def execTallyAckTimeout (stall : Fin 256) (owner : Bool) (s : State) : Out :=
  let g := stall.val
  .next <|
    match getStall s g with
    | none => s
    | some x =>
      if owner then
        (if (unitStatuses s (unitTally g)).isNone || x.append.any (·.fresh.isSome) then ownerTimeout s g x else s)
      else if (unitStatuses s (unitTally g)).isNone || (unitStatuses s unitFill).isNone then guardianLost s g 6
      else match s.torter.assigning, unitStatuses s unitAssign with
        | some m, none => assignTimeout s m
        | _, _ => s

end Sys2Proof.Machine
end

