-- ==== Sys2Proof/Machine/Spdm.lean ====
section
/-! DEFINITION. The SPDM responder of the DOE mailbox and IDE key programming (R437, R449-R451).  The layout of a response and
the error codes are DSP0274's (log 9). -/

namespace Sys2Proof.Machine

/-- Secure state changed. -/
def modSecure (s : State) (f : Secure → Secure) : State := { s with secure := f s.secure }

/-- Whether the mailbox is served: from B4 on (R441), and not in recovery (R442). -/
def doeServed (s : State) : Bool := decide (4 ≤ s.secure.stage) && !s.secure.recovery

/-- A response: the content that the manual states, in DSP0274's layout (log 9). -/
def respondSpdm (s : State) (request : Nat) (req content : List Byte) : State :=
  let v := match s.secure.spdmVersion with
    | some b => b.toNat
    | none => 0x10
  emit { s with fresh := s.fresh + 1 } (.spdm content (Config.spdmBody request v req content s.fresh))

/-- ERROR codes of DSP0274 (log 9). -/
def erInvalidRequest : Nat := 0x01
/-- InvalidSession. -/
def erInvalidSession : Nat := 0x02
/-- UnexpectedRequest. -/
def erUnexpected : Nat := 0x04
/-- DecryptError. -/
def erDecrypt : Nat := 0x06
/-- UnsupportedRequest (R450). -/
def erUnsupported : Nat := 0x07
/-- SessionLimitExceeded. -/
def erSessionLimit : Nat := 0x0A
/-- VersionMismatch. -/
def erVersion : Nat := 0x41

/-- A request answered with ERROR. -/
def spdmFail (s : State) (code : Nat) : State := emit s (.spdmError code)

/-- A request as the responder serves it: nothing where the mailbox is not served. -/
def spdmServe (s : State) (f : State → State) : Out := .next (if doeServed s then f s else s)

/-- GET_VERSION (R450): 1.2, 1.3 and 1.4. -/
def execGetVersion (req : List Byte) (s : State) : Out :=
  spdmServe s fun s => respondSpdm s 0x84 req [0x12, 0x13, 0x14]

/-- GET_CAPABILITIES (R450): the requester's version is in force; algorithms are negotiated anew. -/
def execGetCapabilities (version : Byte) (req : List Byte) (s : State) : Out :=
  spdmServe s fun s =>
    if ([0x12, 0x13, 0x14] : List Byte).contains version then
      respondSpdm (modSecure s fun x => { x with spdmVersion := some version, spdmAlgs := ⟨false, false, false, false⟩ }) 0xE1 req []
    else spdmFail s erVersion

/-- The algorithms that come into force (R450): ML-DSA-65 and ML-KEM-768 exist only from version 1.4. -/
def algsFor (v : Option Byte) (o : SpdmOffer) : SpdmOffer :=
  { o with dsa := o.dsa && v == some 0x14, kem := o.kem && v == some 0x14 }

/-- NEGOTIATE_ALGORITHMS (R450). -/
def execNegotiateAlgorithms (offer : SpdmOffer) (req : List Byte) (s : State) : Out :=
  spdmServe s fun s =>
    let a := algsFor s.secure.spdmVersion offer
    respondSpdm (modSecure s fun x => { x with spdmAlgs := a }) 0xE3 req
      ([a.dsa, a.kem, a.sha3, a.aes].map fun b => BitVec.ofNat 8 (b2n b))

/-- The SHA3-384 digest of the certificate chain in slot 0 (R437, R450). -/
def chainDigest : List Byte := leBytes 48 (sha3x384 Config.certChain).toNat

/-- The ML-DSA-65 signature of a response (R450): what it covers is DSP0274's (log 9). -/
def spdmSign (s : State) (request : Nat) (req : List Byte) : List Byte :=
  slice (Config.mlDsaSign s.secure.seed [] (Config.spdmSigned request 0x14 req s.fresh)) 0 3309

/-- GET_DIGESTS (R450): slot 0. -/
def execGetDigests (req : List Byte) (s : State) : Out :=
  spdmServe s fun s => respondSpdm s 0x81 req ([1] ++ chainDigest)

/-- GET_CERTIFICATE (R437, R450): slot 0 only. -/
def execGetCertificate (slot : BitVec 4) (off len : Nat) (req : List Byte) (s : State) : Out :=
  spdmServe s fun s =>
    if slot = 0 then respondSpdm s 0x82 req (slice Config.certChain off len) else spdmFail s erInvalidRequest

/-- CHALLENGE (R450): the chain's digest, signed. -/
def execChallenge (req : List Byte) (s : State) : Out :=
  spdmServe s fun s =>
    if s.secure.spdmAlgs.dsa then respondSpdm s 0x83 req (chainDigest ++ spdmSign s 0x83 req) else spdmFail s erUnsupported

/-- A measurement register as a raw bit stream (R450). -/
def mrBytes (s : State) (i : Nat) : List Byte := leBytes 64 (s.secure.mrs.getD i 0).toNat

/-- The measurements that an index asks for (R450): indices 1-6 are MR0-MR5; 0 their number and 0xFF all of them
(log 9). -/
def measured (s : State) (index : Nat) : Option (List Byte) :=
  if 1 ≤ index && index ≤ 6 then some (mrBytes s (index - 1))
  else if index = 0 then some [6]
  else if index = 0xFF then some ((List.range 6).map (mrBytes s)).flatten
  else none

/-- GET_MEASUREMENTS (R450). -/
def execGetMeasurements (index : Nat) (signed : Bool) (req : List Byte) (s : State) : Out :=
  spdmServe s fun s =>
    if signed && !s.secure.spdmAlgs.dsa then spdmFail s erUnsupported
    else match measured s index with
      | some b => respondSpdm s 0xE0 req (if signed then b ++ spdmSign s 0xE0 req else b)
      | none => spdmFail s erInvalidRequest

/-- KEY_EXCHANGE (R450): at most two sessions; it needs both asymmetric algorithms, ML-KEM-768 for the key and ML-DSA-65
for its signature (log 9). -/
def execKeyExchange (req : List Byte) (s : State) : Out :=
  spdmServe s fun s =>
    if !s.secure.spdmAlgs.kem || !s.secure.spdmAlgs.dsa then spdmFail s erUnsupported
    else if 2 ≤ s.secure.sessions.length then spdmFail s erSessionLimit
    else
      let key := slice (Config.mlKemKey req s.fresh) 0 32
      respondSpdm (modSecure s fun x =>
        { x with sessions := x.sessions ++ [⟨x.nextSession, false, key⟩], nextSession := x.nextSession + 1 }) 0xE4 req
        (slice (Config.mlKemCipher req s.fresh) 0 1088 ++ spdmSign s 0xE4 req)

/-- A session. -/
def findSession (s : State) (id : Nat) : Option Session := s.secure.sessions.find? fun x => x.id == id

/-- A session removed. -/
def dropSession (s : State) (id : Nat) : State :=
  modSecure s fun x => { x with sessions := x.sessions.filter fun y => y.id != id }

/-- Whether a session is established. -/
def sessionUp (s : State) (id : Nat) : Bool :=
  match findSession s id with
  | some x => x.established
  | none => false

/-- FINISH (R450): the session of a KEY_EXCHANGE is established, or ends where its check fails. -/
def execFinish (session : Nat) (ok : Bool) (req : List Byte) (s : State) : Out :=
  spdmServe s fun s =>
    match findSession s session with
    | none => spdmFail s erInvalidSession
    | some x =>
      if x.established then spdmFail s erUnexpected
      else if !ok then spdmFail (dropSession s session) erDecrypt
      else
        respondSpdm (modSecure s fun y =>
          { y with sessions := y.sessions.map fun z => if z.id = session then { z with established := true } else z })
          0xE5 req []

/-- KEY_UPDATE (R450): the session goes on under its next AES-256-GCM key. -/
def execKeyUpdate (session : Nat) (req : List Byte) (s : State) : Out :=
  spdmServe s fun s =>
    if sessionUp s session then
      respondSpdm (modSecure s fun y =>
        { y with sessions := y.sessions.map fun z => if z.id = session then { z with key := Config.nextKey z.key } else z })
        0xE9 req []
    else spdmFail s erInvalidSession

/-- HEARTBEAT (R450). -/
def execHeartbeat (session : Nat) (req : List Byte) (s : State) : Out :=
  spdmServe s fun s => if sessionUp s session then respondSpdm s 0xE8 req [] else spdmFail s erInvalidSession

/-- END_SESSION (R450, R451): keys in use stay. -/
def execEndSession (session : Nat) (req : List Byte) (s : State) : Out :=
  spdmServe s fun s =>
    if sessionUp s session then dropSession (respondSpdm s 0xEC req []) session else spdmFail s erInvalidSession

/-- KEY_PROG (R451): the key of a stream, only within a session. -/
def execKeyProg (session : Option Nat) (stream : Fin 4) (key : List Byte) (s : State) : Out :=
  spdmServe s fun s =>
    match session with
    | some id =>
      if sessionUp s id then
        respondSpdm (modSecure s fun x => { x with ideKeys := tset x.ideKeys stream.val key }) 0xFE key []
      else spdmFail s erInvalidSession
    | none => spdmFail s erUnexpected

end Sys2Proof.Machine
end

