-- ==== Sys2Proof/Machine/Topology.lean ====
section
/-! DEFINITION. The topology map and the routes Torter computes from it (R333-R336, R338, R477): TOPO_LOAD. -/

namespace Sys2Proof.Machine

/-! The map's fields (R334). -/

/-- Positions of a map. -/
def mapNpos (t : List Byte) : Nat := leAt t 2 2

/-- Entry of a position's row. -/
def mapRow (t : List Byte) (p r : Nat) : Nat := leAt t (64 + 16 * p + 2 * r) 2

/-- Whether a module in service stands at a position. -/
def mapPresent (t : List Byte) (p : Nat) : Bool :=
  decide (p < mapNpos t) && bits (leAt t (64 + 16 * p + 12) 2) 0 0 == 1

/-- Placement word of a logical module. -/
def mapPlace (t : List Byte) (l : Nat) : Nat := leAt t (64 + 16 * mapNpos t + 2 * l) 2

/-- Position of a logical module that the map places. -/
def placeOf (t : List Byte) (l : Nat) : Option Nat := if 32768 ≤ mapPlace t l then some (mapPlace t l % 1024) else none

/-- Position that a row leads to, in the graph of R336: connected, between positions that are present. -/
def rowTo (t : List Byte) (p r : Nat) : Option Nat :=
  let w := mapRow t p r
  if 32768 ≤ w && mapPresent t p && mapPresent t (w % 1024) then some (w % 1024) else none

/-! Checks (R334, R338). -/

/-- Whether the map's reserved fields are 0. -/
def mapReserved (t : List Byte) : Bool :=
  zeroBytes t 1 1 && leAt t 8 2 / 512 == 0 && leAt t 10 2 / 512 == 0 && zeroBytes t 12 63
    && (List.range (mapNpos t)).all (fun p =>
      (List.range 6).all (fun r => bits (mapRow t p r) 14 13 == 0)
        && leAt t (64 + 16 * p + 12) 2 / 2 == 0 && leAt t (64 + 16 * p + 14) 2 == 0)
    && (List.range 512).all fun l => bits (mapPlace t l) 14 10 == 0

/-- Whether every connected row names a position of the map and a row. -/
def mapRows (t : List Byte) : Bool :=
  (List.range (mapNpos t)).all fun p =>
    (List.range 6).all fun r =>
      let w := mapRow t p r
      w < 32768 || (decide (w % 1024 < mapNpos t) && decide (bits w 12 10 ≤ 5))

/-- The positions that the map places logical modules at, in their order. -/
def placesOf (t : List Byte) : List Nat := (List.range 512).filterMap (placeOf t)

/-- Whether no value occurs twice. -/
def allDistinct : List Nat → Bool
  | [] => true
  | x :: r => !r.contains x && allDistinct r

/-! Routes (R336). -/

/-- Positions by their distance to a destination: those at distance 0 first; `fuel` levels follow. -/
def levels (t : List Byte) : Nat → List Nat → List Nat → List (List Nat)
  | 0, _, front => [front]
  | fuel + 1, known, front =>
    let next := (List.range (mapNpos t)).filter fun p =>
      !known.contains p && (List.range 6).any fun r =>
        match rowTo t p r with
        | some q => front.contains q
        | none => false
    if next = [] then [front] else front :: levels t fuel (known ++ next) next

/-- Positions by distance, up to 15 hops (R336). -/
def levelsTo (t : List Byte) (dest : Nat) : List (List Nat) := levels t 15 [dest] [dest]

/-- Rows of a position whose next hop lies on a path of fewest hops; none where the destination cannot be reached. -/
def nextRows (t : List Byte) (here dest : Nat) : Option (List Nat) :=
  if !mapPresent t here || !mapPresent t dest then none
  else
    let ls := levelsTo t dest
    (indexOf (fun l : List Nat => l.contains here) ls).map fun k =>
      (List.range 6).filter fun r =>
        match rowTo t here r, k with
        | some q, k + 1 => (ls.getD k []).contains q
        | _, _ => false

/-- The row that dies of row `y` use (R336): their own, else the nearest, of two equally near the lower. -/
def chooseRow (y : Nat) (rows : List Nat) : Option Nat :=
  let far (r : Nat) : Nat := (y - r) + (r - y)
  rows.foldl (fun m r => match m with
    | none => some r
    | some b => if far r < far b || (far r == far b && decide (r < b)) then some r else some b) none

/-- A route table entry (R335). -/
def routeByte (y : Nat) (rows : List Nat) : Byte :=
  match chooseRow y rows with
  | some r => BitVec.ofNat 8 (128 + r)
  | none => 0

/-- Whether a map passes every check on the module at a position, whose epoch is `cur` (R334, R336, R338). -/
def mapOk (t : List Byte) (here cur : Nat) : Bool :=
  let ahead := (leAt t 4 4 + 2 ^ 32 - cur) % 2 ^ 32
  leAt t 0 1 == 1 && decide (1 ≤ mapNpos t) && decide (mapNpos t ≤ 1024) && t.length == 64 + 16 * mapNpos t + 1024
    && decide (1 ≤ ahead) && decide (ahead < 2 ^ 31) && mapReserved t && mapRows t && allDistinct (placesOf t)
    && (placesOf t).all fun p => (nextRows t here p).isSome

/-! TOPO_LOAD. -/

/-- Whether a stall that spans modules has an open step and is not held (R338). -/
def redrawBusy (s : State) : Bool :=
  (stalls s).any fun x => decide (1 < popcount 512 (hasMod x.2)) && x.2.openStep.isSome && x.2.mode != .held

/-- Whether a link still has flits unacknowledged or packets held (R338). -/
def linkBusy (s : State) (d : Nat) : Bool :=
  let l := getLink s d
  decide (1 ≤ lkState s d) && decide (lkState s d ≤ 3) && (l.replay != [] || l.txq != [] || l.rxPkts != [])

/-- A link's partner compared with the new map, if it has negotiated (R331). -/
def recheckWiring (s : State) (d : Nat) : State :=
  let b := linkBlk d
  if lkState s d ≠ 3 then s
  else
    let bad := rf s b LK_PARTNER_COL != d % 6 || (match topoPartner s (d / 6) with
      | some (p, r) => rf s b LK_PARTNER_POS != p || rf s b LK_PARTNER_ROW != r
      | none => false)
    wf s b LK_STATUS_MISWIRED (b2n bad)

/-- A die's logical number, epoch and route table (R335, R477); `table` holds 512 entries. -/
def writeRoutes (s : State) (d epoch : Nat) (own : Option Nat) (table : List Byte) : State :=
  let s := wf (wf s (dieBlk d) DIE_LMOD_NOLMOD (b2n own.isNone)) (dieBlk d) DIE_LMOD_LMOD (own.getD 0)
  let s := wf s (linkBlk d) LK_EPOCH_EPOCH epoch
  (List.range 64).foldl (fun s i => setReg s (linkBlk d + 0x1000 + 8 * i) (leWord (slice table (8 * i) 8))) s

/-- Whether a map places a logical number at another position than the map before it, or no longer in service. -/
def movedIn (old t : List Byte) (l : Nat) : Bool :=
  placeOf old l != placeOf t l || !((placeOf t l).any (mapPresent t))

/-- What a map means to recovery: a guardian that it no longer places where it stood is lost (R365, R376), and the modules of
a held stall that it places anew are spares (R348, R370). -/
def noteMoves (s : State) (old t : List Byte) : State :=
  let s := match s.torter.guardian with
    | some m => if movedIn old t m.toNat then (stalls s).foldl (fun s p => dropGuardian s p.1) (dropGuardian s 0) else s
    | none => s
  (stalls s).foldl (fun s p =>
    if p.2.mode != .held then s
    else modStall s p.1 fun x =>
      let new := (List.range 512).filter fun l =>
        hasMod x l && (placeOf old l).isSome && (placeOf t l).isSome && movedIn old t l && !x.spares.contains l
      { x with spares := x.spares ++ new }) s

/-- The map in force (R338): every die's tables, and the wiring of the links that are up. -/
def loadMap (s : State) (t : List Byte) (here : Nat) : State :=
  let own := (List.range 512).find? fun l => placeOf t l == some here
  let hops := (List.range 512).map fun l => ((placeOf t l).bind (nextRows t here)).getD []
  let s := modTorter (if s.torter.topo = [] then s else noteMoves s s.torter.topo t) fun x => { x with topo := t }
  let s := (List.range (ndie s)).foldl (fun s d => writeRoutes s d (leAt t 4 4) own (hops.map (routeByte (d / 6)))) s
  (List.range (ndie s)).foldl recheckWiring s

/-- TOPO_LOAD (R338): the map is read from the window and checked, the links drain, the tables are written. -/
def execTopoLoad (p : Fin 18) : State → Out :=
  runCmd p 0x0902 fun s k =>
    let w := leAt k.params 0 8
    let n := leAt k.params 8 4
    if redrawBusy s then (s, some (scSTALL_BUSY, []))
    else if !woffOk s w n then (s, some (scINVALID_PARAM, []))
    else match winRead s w n with
      | (s, none) => (s, some (scINVALID_PARAM, []))
      | (s, some t) =>
        if !mapOk t Config.position (rf s (linkBlk 0) LK_EPOCH_EPOCH) then (s, some (scINVALID_PARAM, []))
        else if (List.range (ndie s)).any (linkBusy s) then (s, none)
        else (extendMr (loadMap s t Config.position) 5 0x21 (k.params ++ t), some (scOK, []))

end Sys2Proof.Machine
end

