-- ==== Sys2Proof/Machine/Dispatch.lean ====
section
/-! DEFINITION. The dispatch: one arm per command. -/

namespace Sys2Proof.Machine

/-- The effect of a command on everything but the queue. -/
def exec (i : Instr) (s : State) : Host.Outcome State Fault Refusal :=
  match i with
  | .movi c h o => Sys2Proof.Machine.execMovi c h o s
  | .alu c h o => Sys2Proof.Machine.execAlu c h o s
  | .ldx c h o => Sys2Proof.Machine.execLdx c h o s
  | .stx c h o => Sys2Proof.Machine.execStx c h o s
  | .dld c h o => Sys2Proof.Machine.execDld c h o s
  | .dst c h o => Sys2Proof.Machine.execDst c h o s
  | .dset c h o => Sys2Proof.Machine.execDset c h o s
  | .dadv c h o => Sys2Proof.Machine.execDadv c h o s
  | .srd c h o => Sys2Proof.Machine.execSrd c h o s
  | .swr c h o => Sys2Proof.Machine.execSwr c h o s
  | .dq c h o => Sys2Proof.Machine.execDq c h o s
  | .cq c h o => Sys2Proof.Machine.execCq c h o s
  | .pq c h o => Sys2Proof.Machine.execPq c h o s
  | .nop c h o => Sys2Proof.Machine.execNop c h o s
  | .br c h o => Sys2Proof.Machine.execBr c h o s
  | .call c h o => Sys2Proof.Machine.execCall c h o s
  | .ret c h o => Sys2Proof.Machine.execRet c h o s
  | .loop c h o => Sys2Proof.Machine.execLoop c h o s
  | .brk c h o => Sys2Proof.Machine.execBrk c h o s
  | .halt c h o => Sys2Proof.Machine.execHalt c h o s
  | .ssig c h o => Sys2Proof.Machine.execSsig c h o s
  | .swait c h o => Sys2Proof.Machine.execSwait c h o s
  | .rsig c h o => Sys2Proof.Machine.execRsig c h o s
  | .fence c h o => Sys2Proof.Machine.execFence c h o s
  | .bar c h o => Sys2Proof.Machine.execBar c h o s
  | .qpost c h o => Sys2Proof.Machine.execQpost c h o s
  | .draw c h o => Sys2Proof.Machine.execDraw c h o s
  | .retire c h o => Sys2Proof.Machine.execRetire c h o s
  | .account c h o => Sys2Proof.Machine.execAccount c h o s
  | .take c h o => Sys2Proof.Machine.execTake c h o s
  | .send c h o => Sys2Proof.Machine.execSend c h o s
  | .wait c h o => Sys2Proof.Machine.execWait c h o s
  | .mma c h o => Sys2Proof.Machine.execMma c h o s
  | .mmao c h o => Sys2Proof.Machine.execMmao c h o s
  | .mout c h o => Sys2Proof.Machine.execMout c h o s
  | .minit c h o => Sys2Proof.Machine.execMinit c h o s
  | .vop c h o => Sys2Proof.Machine.execVop c h o s
  | .vlp c h o => Sys2Proof.Machine.execVlp c h o s
  | .vlpld c h o => Sys2Proof.Machine.execVlpld c h o s
  | .vperm c h o => Sys2Proof.Machine.execVperm c h o s
  | .vred c h o => Sys2Proof.Machine.execVred c h o s
  | .vopt c h o => Sys2Proof.Machine.execVopt c h o s
  | .sfn c h o => Sys2Proof.Machine.execSfn c h o s
  | .sfd c h o => Sys2Proof.Machine.execSfd c h o s
  | .stld c h o => Sys2Proof.Machine.execStld c h o s
  | .rsmax c h o => Sys2Proof.Machine.execRsmax c h o s
  | .rsexp c h o => Sys2Proof.Machine.execRsexp c h o s
  | .rsmom c h o => Sys2Proof.Machine.execRsmom c h o s
  | .rsctl c h o => Sys2Proof.Machine.execRsctl c h o s
  | .instructionComplete c u => Sys2Proof.Machine.execInstructionComplete c u s
  | .loadDataReturn c ecc => Sys2Proof.Machine.execLoadDataReturn c ecc s
  | .engineQueueFree c => Sys2Proof.Machine.execEngineQueueFree c s
  | .semaphoreWaitRelease c => Sys2Proof.Machine.execSemaphoreWaitRelease c s
  | .fenceRelease c => Sys2Proof.Machine.execFenceRelease c s
  | .barrierRelease d cl b => Sys2Proof.Machine.execBarrierRelease d cl b s
  | .conveyorSlotFree c k => Sys2Proof.Machine.execConveyorSlotFree c k s
  | .coreWake c request => Sys2Proof.Machine.execCoreWake c request s
  | .coreWtimeExpiry c => Sys2Proof.Machine.execCoreWtimeExpiry c s
  | .watchdog c => Sys2Proof.Machine.execWatchdog c s
  | .coreDone c => Sys2Proof.Machine.execCoreDone c s
  | .coreClrcnt c => Sys2Proof.Machine.execCoreClrcnt c s
  | .coreReset c run => Sys2Proof.Machine.execCoreReset c run s
  | .coreRun c => Sys2Proof.Machine.execCoreRun c s
  | .semWrite c k v => Sys2Proof.Machine.execSemWrite c k v s
  | .meClrcnt c k => Sys2Proof.Machine.execMeClrcnt c k s
  | .veClrcnt c => Sys2Proof.Machine.execVeClrcnt c s
  | .sfeClrcnt c => Sys2Proof.Machine.execSfeClrcnt c s
  | .scClrcnt c => Sys2Proof.Machine.execScClrcnt c s
  | .scHeadWrite c v => Sys2Proof.Machine.execScHeadWrite c v s
  | .scTailWrite c v => Sys2Proof.Machine.execScTailWrite c v s
  | .scEvent c v => Sys2Proof.Machine.execScEvent c v s
  | .hbmSpareStart d k chan => Sys2Proof.Machine.execHbmSpareStart d k chan s
  | .dmaClrcnt c => Sys2Proof.Machine.execDmaClrcnt c s
  | .pauseall c b => Sys2Proof.Machine.execPauseall c b s
  | .chClrcnt c => Sys2Proof.Machine.execChClrcnt c s
  | .chPause c b => Sys2Proof.Machine.execChPause c b s
  | .chAbort c => Sys2Proof.Machine.execChAbort c s
  | .chClear c => Sys2Proof.Machine.execChClear c s
  | .chDq c addr => Sys2Proof.Machine.execChDq c addr s
  | .gcClrcnt c => Sys2Proof.Machine.execGcClrcnt c s
  | .redClrcnt d => Sys2Proof.Machine.execRedClrcnt d s
  | .styClrcnt d => Sys2Proof.Machine.execStyClrcnt d s
  | .pluClrcnt d => Sys2Proof.Machine.execPluClrcnt d s
  | .lkClrcnt d => Sys2Proof.Machine.execLkClrcnt d s
  | .lkRetrain d => Sys2Proof.Machine.execLkRetrain d s
  | .lkEnable d b => Sys2Proof.Machine.execLkEnable d b s
  | .dvfsRequest d step => Sys2Proof.Machine.execDvfsRequest d step s
  | .pwrClkselWrite d b => Sys2Proof.Machine.execPwrClkselWrite d b s
  | .padholdRelease d mask => Sys2Proof.Machine.execPadholdRelease d mask s
  | .registerWrite sp addr v => Sys2Proof.Machine.execRegisterWrite sp addr v s
  | .pwait d => Sys2Proof.Machine.execPwait d s
  | .descriptorHead c => Sys2Proof.Machine.execDescriptorHead c s
  | .burstGrant c => Sys2Proof.Machine.execBurstGrant c s
  | .burstReadReturn c ecc => Sys2Proof.Machine.execBurstReadReturn c ecc s
  | .writeAck c => Sys2Proof.Machine.execWriteAck c s
  | .chainedDescriptorArrival c ecc => Sys2Proof.Machine.execChainedDescriptorArrival c ecc s
  | .dmaAgeExpiry c => Sys2Proof.Machine.execDmaAgeExpiry c s
  | .dmaTimeout c => Sys2Proof.Machine.execDmaTimeout c s
  | .channelDrainComplete c => Sys2Proof.Machine.execChannelDrainComplete c s
  | .memoryRequest r => Sys2Proof.Machine.execMemoryRequest r s
  | .scrubRead addr ecc => Sys2Proof.Machine.execScrubRead addr ecc s
  | .spareCopyDone d k => Sys2Proof.Machine.execSpareCopyDone d k s
  | .rowRepair d k row => Sys2Proof.Machine.execRowRepair d k row s
  | .meshSlip d dir => Sys2Proof.Machine.execMeshSlip d dir s
  | .meshFlitCrcError d dir => Sys2Proof.Machine.execMeshFlitCrcError d dir s
  | .gcCommand c => Sys2Proof.Machine.execGcCommand c s
  | .pluLookup d => Sys2Proof.Machine.execPluLookup d s
  | .pluComplete d => Sys2Proof.Machine.execPluComplete d s
  | .redPoll d => Sys2Proof.Machine.execRedPoll d s
  | .redTimeout d => Sys2Proof.Machine.execRedTimeout d s
  | .styMessage d m => Sys2Proof.Machine.execStyMessage d m s
  | .styBroadcast d m => Sys2Proof.Machine.execStyBroadcast d m s
  | .slotSwap c k => Sys2Proof.Machine.execSlotSwap c k s
  | .dieClose d => Sys2Proof.Machine.execDieClose d s
  | .dieStepFailed d => Sys2Proof.Machine.execDieStepFailed d s
  | .stepClose stall dstep others loss => Sys2Proof.Machine.execStepClose stall dstep others loss s
  | .fillComplete => Sys2Proof.Machine.execFillComplete s
  | .flitReceive d flit errA errB => Sys2Proof.Machine.execFlitReceive d flit errA errB s
  | .ackTimer d => Sys2Proof.Machine.execAckTimer d s
  | .replayTimeout d => Sys2Proof.Machine.execReplayTimeout d s
  | .laneFail d f => Sys2Proof.Machine.execLaneFail d f s
  | .swap d lane => Sys2Proof.Machine.execSwap d lane s
  | .swapack d lane refuse => Sys2Proof.Machine.execSwapack d lane refuse s
  | .alignmentBlock d map => Sys2Proof.Machine.execAlignmentBlock d map s
  | .neg d m => Sys2Proof.Machine.execNeg d m s
  | .negResend d => Sys2Proof.Machine.execNegResend d s
  | .lossOfLight d => Sys2Proof.Machine.execLossOfLight d s
  | .trainingPhaseComplete d r => Sys2Proof.Machine.execTrainingPhaseComplete d r s
  | .read d p => Sys2Proof.Machine.execRead d p s
  | .write d p => Sys2Proof.Machine.execWrite d p s
  | .rdata d p => Sys2Proof.Machine.execRdata d p s
  | .wack d p => Sys2Proof.Machine.execWack d p s
  | .notice d p => Sys2Proof.Machine.execNotice d p s
  | .count d p => Sys2Proof.Machine.execCount d p s
  | .crierFlush d => Sys2Proof.Machine.execCrierFlush d s
  | .crierExpiry d fid => Sys2Proof.Machine.execCrierExpiry d fid s
  | .laserFail row => Sys2Proof.Machine.execLaserFail row s
  | .latchOpen row => Sys2Proof.Machine.execLatchOpen row s
  | .doorbell q tail ring bad => Sys2Proof.Machine.execDoorbell q tail ring bad s
  | .completionRelease q head => Sys2Proof.Machine.execCompletionRelease q head s
  | .queueEnable q => Sys2Proof.Machine.execQueueEnable q s
  | .queueDisable q => Sys2Proof.Machine.execQueueDisable q s
  | .completionWrite q => Sys2Proof.Machine.execCompletionWrite q s
  | .coalTimer q => Sys2Proof.Machine.execCoalTimer q s
  | .windowRead off len ecc => Sys2Proof.Machine.execWindowRead off len ecc s
  | .windowWrite off data => Sys2Proof.Machine.execWindowWrite off data s
  | .functionLevelReset => Sys2Proof.Machine.execFunctionLevelReset s
  | .hotReset => Sys2Proof.Machine.execHotReset s
  | .cxlReset => Sys2Proof.Machine.execCxlReset s
  | .cxlLinkDown => Sys2Proof.Machine.execCxlLinkDown s
  | .mgmtDatagram sender pkt => Sys2Proof.Machine.execMgmtDatagram sender pkt s
  | .i3cPrivateWrite bytes => Sys2Proof.Machine.execI3cPrivateWrite bytes s
  | .i3cPrivateRead len => Sys2Proof.Machine.execI3cPrivateRead len s
  | .smbusBlockWrite code bytes => Sys2Proof.Machine.execSmbusBlockWrite code bytes s
  | .smbusBlockRead => Sys2Proof.Machine.execSmbusBlockRead s
  | .discover p => Sys2Proof.Machine.execDiscover p s
  | .echo p => Sys2Proof.Machine.execEcho p s
  | .stallForm p => Sys2Proof.Machine.execStallForm p s
  | .stallDissolve p => Sys2Proof.Machine.execStallDissolve p s
  | .jobConfig p => Sys2Proof.Machine.execJobConfig p s
  | .jobEnd p => Sys2Proof.Machine.execJobEnd p s
  | .stallHold p => Sys2Proof.Machine.execStallHold p s
  | .stallRelease p => Sys2Proof.Machine.execStallRelease p s
  | .stallQuery p => Sys2Proof.Machine.execStallQuery p s
  | .windowMap p => Sys2Proof.Machine.execWindowMap p s
  | .progLoad p => Sys2Proof.Machine.execProgLoad p s
  | .dataCopy p => Sys2Proof.Machine.execDataCopy p s
  | .chainSet p => Sys2Proof.Machine.execChainSet p s
  | .exchSet p => Sys2Proof.Machine.execExchSet p s
  | .stepBegin p => Sys2Proof.Machine.execStepBegin p s
  | .stepEnd p => Sys2Proof.Machine.execStepEnd p s
  | .stepQuery p => Sys2Proof.Machine.execStepQuery p s
  | .protectSet p => Sys2Proof.Machine.execProtectSet p s
  | .mirrorAssign p => Sys2Proof.Machine.execMirrorAssign p s
  | .snapRelease p => Sys2Proof.Machine.execSnapRelease p s
  | .fillStart p => Sys2Proof.Machine.execFillStart p s
  | .fillQuery p => Sys2Proof.Machine.execFillQuery p s
  | .restore p => Sys2Proof.Machine.execRestore p s
  | .pwrSet p => Sys2Proof.Machine.execPwrSet p s
  | .pwrQuery p => Sys2Proof.Machine.execPwrQuery p s
  | .feedSet p => Sys2Proof.Machine.execFeedSet p s
  | .attest p => Sys2Proof.Machine.execAttest p s
  | .certRead p => Sys2Proof.Machine.execCertRead p s
  | .faultQuery p => Sys2Proof.Machine.execFaultQuery p s
  | .telemRead p => Sys2Proof.Machine.execTelemRead p s
  | .counterRead p => Sys2Proof.Machine.execCounterRead p s
  | .fwStage p => Sys2Proof.Machine.execFwStage p s
  | .fwActivate p => Sys2Proof.Machine.execFwActivate p s
  | .fwQuery p => Sys2Proof.Machine.execFwQuery p s
  | .linkQuery p => Sys2Proof.Machine.execLinkQuery p s
  | .linkService p => Sys2Proof.Machine.execLinkService p s
  | .topoLoad p => Sys2Proof.Machine.execTopoLoad p s
  | .getVersion req => Sys2Proof.Machine.execGetVersion req s
  | .getCapabilities version req => Sys2Proof.Machine.execGetCapabilities version req s
  | .negotiateAlgorithms offer req => Sys2Proof.Machine.execNegotiateAlgorithms offer req s
  | .getDigests req => Sys2Proof.Machine.execGetDigests req s
  | .getCertificate slot off len req => Sys2Proof.Machine.execGetCertificate slot off len req s
  | .challenge req => Sys2Proof.Machine.execChallenge req s
  | .getMeasurements index signed req => Sys2Proof.Machine.execGetMeasurements index signed req s
  | .keyExchange req => Sys2Proof.Machine.execKeyExchange req s
  | .finish session ok req => Sys2Proof.Machine.execFinish session ok req s
  | .keyUpdate session req => Sys2Proof.Machine.execKeyUpdate session req s
  | .heartbeat session req => Sys2Proof.Machine.execHeartbeat session req s
  | .endSession session req => Sys2Proof.Machine.execEndSession session req s
  | .keyProg session stream key => Sys2Proof.Machine.execKeyProg session stream key s
  | .powerRequestGrant => Sys2Proof.Machine.execPowerRequestGrant s
  | .dvfsRampDone d => Sys2Proof.Machine.execDvfsRampDone d s
  | .thermalEvaluation tj => Sys2Proof.Machine.execThermalEvaluation tj s
  | .lugMonitor ma => Sys2Proof.Machine.execLugMonitor ma s
  | .entryPoint d => Sys2Proof.Machine.execEntryPoint d s
  | .wakeEvent d ev => Sys2Proof.Machine.execWakeEvent d ev s
  | .exitStep d => Sys2Proof.Machine.execExitStep d s
  | .pwrTimerExpiry d => Sys2Proof.Machine.execPwrTimerExpiry d s
  | .tpulseEdge => Sys2Proof.Machine.execTpulseEdge s
  | .refclkLoss => Sys2Proof.Machine.execRefclkLoss s
  | .refclkReturn => Sys2Proof.Machine.execRefclkReturn s
  | .resetNAssert => Sys2Proof.Machine.execResetNAssert s
  | .resetNRelease => Sys2Proof.Machine.execResetNRelease s
  | .pwrEnAssert => Sys2Proof.Machine.execPwrEnAssert s
  | .powerDownTrigger cause => Sys2Proof.Machine.execPowerDownTrigger cause s
  | .powerUpStage => Sys2Proof.Machine.execPowerUpStage s
  | .bootStage r => Sys2Proof.Machine.execBootStage r s
  | .inputVoltageInRange => Sys2Proof.Machine.execInputVoltageInRange s
  | .tallyAckTimeout stall owner => Sys2Proof.Machine.execTallyAckTimeout stall owner s
  | .latchClose row => Sys2Proof.Machine.execLatchClose row s
  | .meshRecentreComplete d dir ok => Sys2Proof.Machine.execMeshRecentreComplete d dir ok s
  | .rowRepairDone d k => Sys2Proof.Machine.execRowRepairDone d k s
  | .domainSwitchDone k => Sys2Proof.Machine.execDomainSwitchDone k s
  | .coolantOutletWarning outlet => Sys2Proof.Machine.execCoolantOutletWarning outlet s
  | .dynamicAddressAssignment addr => Sys2Proof.Machine.execDynamicAddressAssignment addr s

end Sys2Proof.Machine
end

