-- ==== Sys2Proof/Safety.lean ====
section
/-! DEFINITION. What claims call safe: memory in its canonical form, no core faulted, no uncorrectable error, no fatal
error; and the bounds that the manual puts on the engine's free results (R153, R157). -/

namespace Sys2Proof.Safety

open Sys2Proof.Machine

/-- Memory is in its canonical form. -/
def MemoryCanonical (s : State) : Prop := Memory.wf s.mem = true

/-- No core has faulted (R89, R95). -/
def NoCoreFaulted (s : State) : Prop := ∀ d n, d < 36 → n < 256 → coreState s d n ≠ stFAULTED

/-- No die has recorded an uncorrectable memory error (R198). -/
def NoMemoryError (s : State) : Prop := ∀ d, d < 36 → rf s (dieBlk d) MEM_ERR_UE = 0

/-- A state in which nothing has failed. -/
def Safe (s : State) : Prop :=
  MemoryCanonical s ∧ NoCoreFaulted s ∧ NoMemoryError s ∧ rf s bar0Blk MCI_STATUS_FATAL = 0

/-! The functions of R153, as real functions. -/

/-- The error function. -/
noncomputable def erf (x : ℝ) : ℝ := 2 / √Real.pi * ∫ t in (0 : ℝ)..x, Real.exp (-t ^ 2)

/-- The standard normal distribution function, Φ. -/
noncomputable def phi (x : ℝ) : ℝ := (1 + erf (x / √2)) / 2

/-- The logistic function, σ. -/
noncomputable def sigma (x : ℝ) : ℝ := 1 / (1 + Real.exp (-x))

/-- Built-in function `fn` (R153). -/
noncomputable def builtin (fn : Nat) (x : ℝ) : ℝ :=
  match fn with
  | 0x00 => (2 : ℝ) ^ x
  | 0x01 => Real.exp x
  | 0x02 => Real.logb 2 x
  | 0x03 => Real.log x
  | 0x04 => 1 / x
  | 0x05 => 1 / √x
  | 0x06 => √x
  | 0x07 => Real.tanh x
  | 0x08 => sigma x
  | 0x09 => x * phi x
  | 0x0A => x * sigma x
  | 0x0B => Real.log (1 + Real.exp x)
  | 0x0C => erf x
  | 0x0D => Real.sin (2 * Real.pi * x)
  | _ => Real.cos (2 * Real.pi * x)

/-- The number `(-1)^neg * man * 2^exp`. -/
noncomputable def realOf (neg : Bool) (man : Nat) (exp : Int) : ℝ := (if neg then -1 else 1) * man * (2 : ℝ) ^ exp

/-- The unit in the last place of a 24-bit significand at `y` (R153). -/
noncomputable def ulp (y : ℝ) : ℝ := (2 : ℝ) ^ (⌊Real.logb 2 |y|⌋ - 23)

/-- Ulps that R153 allows a function. -/
def ulps (fn : Nat) : Nat :=
  match fn with
  | 0x00 | 0x04 | 0x05 | 0x06 => 1
  | 0x01 | 0x02 | 0x03 => 2
  | 0x09 | 0x0A => 4
  | _ => 3

/-- The absolute bound that R153 gives a function in place of its ulps, where it gives one. -/
noncomputable def absBound (fn : Nat) (x y : ℝ) : Option ℝ :=
  if fn = 0x02 ∨ fn = 0x03 then (if 1 / 2 ≤ x ∧ x ≤ 2 then some (2 ^ (-23 : ℤ)) else none)
  else if fn = 0x09 ∨ fn = 0x0A then (if |y| < 1 / 4 then some (2 ^ (-22 : ℤ)) else none)
  else if fn = 0x0C then (if |x| < 2 ^ (-4 : ℤ) then some (2 ^ (-24 : ℤ)) else none)
  else if fn = 0x0D ∨ fn = 0x0E then some (2 ^ (-22 : ℤ))
  else none

/-- How far a built-in's result may lie from the exact one (R153). -/
noncomputable def bound (fn : Nat) (x y : ℝ) : ℝ := (absBound fn x y).getD (ulps fn * ulp y)

/-- How far a derivative may lie from the exact one (R157). -/
noncomputable def boundD (y : ℝ) : ℝ := if |y| < 1 / 4 then 2 ^ (-21 : ℤ) else 4 * ulp y

/-- What the manual promises of the free value `Config.sfeValue` (R153, R155, R157): within the bound of the function, or of
its derivative, on every finite input whose result is neither fixed nor flushed. -/
def BuiltinBound : Prop :=
  ∀ (algrev fn : Nat) (neg : Bool) (man : Nat) (exp : Int), fn ≤ 0x0E →
    (sfeFixed fn (.fin neg man exp) = none →
      let v := Config.sfeValue algrev fn false neg man exp
      let x := realOf neg man exp
      |realOf v.1 v.2.1 v.2.2 - builtin fn x| ≤ bound fn x (builtin fn x)) ∧
    (sfeFixedD fn (.fin neg man exp) = none →
      let v := Config.sfeValue algrev fn true neg man exp
      let x := realOf neg man exp
      |realOf v.1 v.2.1 v.2.2 - deriv (builtin fn) x| ≤ boundD (deriv (builtin fn) x))

end Sys2Proof.Safety
end

