-- ==== Sys2Proof/WellFormed.lean ====
section
/-! DEFINITION. Which commands are well formed: the conditions that the operand types do not carry. -/

namespace Sys2Proof

/-- FUNC[1:0] of a SY instruction: the sub-operation of the step queue, or the conveyor form (R284). -/
def subOp (o : SeqOp) : Nat := o.func.toNat % 4

/-- A packet as a link delivers it (R325): data only where its opcode carries some, as long as LEN says and at most 256
bytes. -/
def packetOk (data : Bool) (p : TPkt) : Bool :=
  decide (p.len.toNat ≤ 256) && decide (p.data.length = if data then p.len.toNat else 0)

/-- The check of a command's operands. -/
def wellFormed (i : Instr) : Bool :=
  match i with
  -- the word of each of these carries its sub-operation in FUNC[1:0] (R284)
  | .qpost _ _ o | .draw _ _ o | .take _ _ o => subOp o == 0
  | .retire _ _ o | .send _ _ o => subOp o == 1
  | .account _ _ o => subOp o == 2
  -- a die has four barriers, a cluster eight (R74)
  | .barrierRelease _ cl b => cl.isSome || decide (b.val < 4)
  -- a register is 8 bytes at a multiple of 8 (R9); the power block and BAR0 are the blocks that R386 and R431 lay out; an
  -- offset in configuration space and in the other BARs has 32 bits
  | .registerWrite sp a _ => decide (a % 8 = 0) && (match sp with
    | .region => decide (a < 2 ^ 55)
    | .power _ => decide (a < 0x1000)
    | .bar0 => decide (a < 0x10000)
    | _ => decide (a < 2 ^ 32))
  -- a request has at least one byte, and a write its data (R189)
  | .memoryRequest r => decide (1 ≤ r.len) && decide (r.data.length = if r.write then r.len else 0)
  -- a flit has 256 bytes, and its code corrects at most eight of them (R318, R319)
  | .flitReceive _ f errA errB => decide (f.length = 256) && decide (errA ≤ 136) && decide (errB ≤ 136)
  | .read _ p | .wack _ p => packetOk false p
  | .write _ p | .rdata _ p => packetOk true p
  -- notices and counts have 32 bytes (R340)
  | .notice _ p | .count _ p => packetOk true p && decide (p.len.toNat = 32)
  -- ring slots of 64 bytes (R387)
  | .doorbell _ _ ring _ => decide (ring.length % 64 = 0)
  -- the window has 256 segments of 1 GiB (R383)
  | .windowRead off len _ => decide (off + len ≤ 2 ^ 38)
  | .windowWrite off data => decide (off + data.length ≤ 2 ^ 38)
  -- a block is at most 32 bytes (R465)
  | .smbusBlockWrite _ bs => decide (bs.length ≤ 32)
  -- four lugs (R459)
  | .lugMonitor ma => decide (ma.length = 4)
  | _ => true

end Sys2Proof
end

