-- ==== Sys2Proof/Certificates/Slice0/Claims.lean ====
section
/-! DEFINITION. The vocabulary of the statements: when a core issues, what an instruction leaves alone, what a fault
records, what a reply says. -/

namespace Sys2Proof.Claims

open Sys2Proof.Machine

/-! Core instructions. -/

/-- The core of a core instruction; none for any other command. -/
def coreOf (i : Instr) : Option CoreId :=
  match i with
  | .movi c _ _ | .alu c _ _ | .ldx c _ _ | .stx c _ _ | .dld c _ _ | .dst c _ _ | .dset c _ _ | .dadv c _ _
  | .srd c _ _ | .swr c _ _ | .dq c _ _ | .cq c _ _ | .pq c _ _ | .nop c _ _ | .br c _ _ | .call c _ _ | .ret c _ _
  | .loop c _ _ | .brk c _ _ | .halt c _ _ | .ssig c _ _ | .swait c _ _ | .rsig c _ _ | .fence c _ _ | .bar c _ _
  | .qpost c _ _ | .draw c _ _ | .retire c _ _ | .account c _ _ | .take c _ _ | .send c _ _ | .wait c _ _
  | .mma c _ _ | .mmao c _ _ | .mout c _ _ | .minit c _ _ | .vop c _ _ | .vlp c _ _ | .vlpld c _ _ | .vperm c _ _
  | .vred c _ _ | .vopt c _ _ | .sfn c _ _ | .sfd c _ _ | .stld c _ _ | .rsmax c _ _ | .rsexp c _ _ | .rsmom c _ _
  | .rsctl c _ _ => some c
  | _ => none

/-- A core of the state. -/
abbrev coreAt (s : State) (c : CoreId) : CoreSt := getCore s c.die.val c.n.val

/-- First address of a core's register slot. -/
abbrev slotOf (c : CoreId) : Nat := coreBlk c.die.val c.n.val

/-- Whether a core may issue: it exists, has its clock, runs, holds nothing, and nothing stored in it is disturbed (R63, R95,
R96, R198, R418). -/
structure Running (s : State) (c : CoreId) : Prop where
  exists_ : dieOk s c.die.val = true
  clocked : coresClocked s c.die.val = true
  clean : (coreAt s c).upsets = []
  run : coreState s c.die.val c.n.val = stRUN
  free : (coreAt s c).hold = none
  settled : (coreAt s c).orphans = []

/-- A semaphore's count after WEN has taken from it (R64, R71). -/
def semTaken (s : State) (c : CoreId) (h : Hdr) (k : Nat) : Nat :=
  semVal s c.die.val c.n.val k - (if h.wen = true ∧ k = h.wsem.toNat then 1 else 0)

/-- A semaphore's count after WEN and SEN (R66, R71). -/
def semAfter (s : State) (c : CoreId) (h : Hdr) (k : Nat) : Nat :=
  semTaken s c h k + (if h.sen = true ∧ k = h.ssem.toNat then 1 else 0)

/-- Whether an instruction with these fields issues at once: its core runs, its semaphore holds a count, the program
counter lies in backed core memory and holds a word that is delivered without an error and is no reserved encoding (R65, R66,
R81, R195). -/
structure Issues (s : State) (c : CoreId) (h : Hdr) : Prop where
  running : Running s c
  taken : h.wen = true → 0 < semVal s c.die.val c.n.val h.wsem.toNat
  backed : pcBacked (pcOf s c.die.val c.n.val) = true
  word : fetchOk s c.die.val c.n.val (pcOf s c.die.val c.n.val) = true

/-- Whether its completion signal fits in its semaphore (R71). -/
def SignalFits (s : State) (c : CoreId) (h : Hdr) : Prop := h.sen = true → semTaken s c h h.ssem.toNat < 65535

/-- Whether no loop of a core ends at an offset (R75): its innermost body, entered at the current call depth, ends
elsewhere. -/
def NoLoopEnds (k : CoreSt) (p : Nat) : Prop := ∀ l ∈ k.loops.head?, ¬ (l.stop = p ∧ l.depth = k.rets.length)

/-- The registers that every issue may change: CORE_PC, the count of issued instructions and the two semaphores. -/
def IssueRegs (c : CoreId) (h : Hdr) (a : Nat) : Prop :=
  a = slotOf c + CORE_PC_PC.off ∨ a = slotOf c + CNT_ISSUE.off
    ∨ (h.wen = true ∧ a = slotOf c + 8 * h.wsem.toNat + SEM_VALUE.off)
    ∨ (h.sen = true ∧ a = slotOf c + 8 * h.ssem.toNat + SEM_VALUE.off)

/-- Every other core is as before. -/
def OtherCores (s t : State) (c : CoreId) : Prop :=
  ∀ (e : Die) (m : Fin 256), (⟨e, m⟩ : CoreId) ≠ c → getCore t e.val m.val = getCore s e.val m.val

/-- Every byte of memory is as before. -/
def SameMemory (s t : State) : Prop := ∀ a, mget t.mem a = mget s.mem a

/-- An instruction has executed whole within its core: issue goes on at offset `p`, WEN and SEN have been served, the core
is `k` but for its instruction buffer, and nothing else has changed. -/
structure Executed (s t : State) (c : CoreId) (h : Hdr) (p : Nat) (k : CoreSt) : Prop where
  pc : pcOf t c.die.val c.n.val = p
  sems : ∀ q < 64, semVal t c.die.val c.n.val q = semAfter s c h q
  issued : regWord t (slotOf c + CNT_ISSUE.off) = regWord s (slotOf c + CNT_ISSUE.off) + 1
  core : coreAt t c = { k with ibuf := (coreAt t c).ibuf }
  regs : ∀ a, ¬ IssueRegs c h a → regWord t a = regWord s a
  cores : OtherCores s t c
  memory : SameMemory s t
  rest : t = { s with regs := t.regs, cores := t.cores }

/-- An instruction has run: issue goes on at offset `p`, the semaphores are `V`, the core is `k` but for its instruction
buffer, registers outside `R` are as before, and so is everything else. -/
structure Ran (s t : State) (c : CoreId) (p : Nat) (k : CoreSt) (V : Nat → Nat) (R : Nat → Prop) : Prop where
  pc : pcOf t c.die.val c.n.val = p
  sems : ∀ q < 64, semVal t c.die.val c.n.val q = V q
  core : coreAt t c = { k with ibuf := (coreAt t c).ibuf }
  regs : ∀ a, ¬ R a → regWord t a = regWord s a
  cores : OtherCores s t c
  memory : SameMemory s t
  rest : t = { s with regs := t.regs, cores := t.cores }

/-- An instruction of a core has issued, and holds issue for a reason: the program counter stays, WEN has been served,
nothing else of the core has changed. -/
structure Holds (s t : State) (c : CoreId) (h : Hdr) (i : Instr) (why : HoldWhy) : Prop where
  core : coreAt t c = { coreAt s c with hold := some ⟨why, i⟩, ibuf := (coreAt t c).ibuf }
  pc : pcOf t c.die.val c.n.val = pcOf s c.die.val c.n.val
  sems : ∀ q < 64, semVal t c.die.val c.n.val q = semTaken s c h q
  issued : regWord t (slotOf c + CNT_ISSUE.off) = regWord s (slotOf c + CNT_ISSUE.off) + 1
  regs : ∀ a, a ≠ slotOf c + CNT_ISSUE.off → ¬ (h.wen = true ∧ a = slotOf c + 8 * h.wsem.toNat + SEM_VALUE.off) →
    regWord t a = regWord s a
  cores : OtherCores s t c
  memory : SameMemory s t

/-- A semaphore's count after SEN of a held instruction (R66). -/
def semSent (s : State) (c : CoreId) (h : Hdr) (k : Nat) : Nat :=
  semVal s c.die.val c.n.val k + (if h.sen = true ∧ k = h.ssem.toNat then 1 else 0)

/-- The registers that the end of a hold may change: CORE_PC and the semaphore of SEN. -/
def ReleaseRegs (c : CoreId) (h : Hdr) (a : Nat) : Prop :=
  a = slotOf c + CORE_PC_PC.off ∨ (h.sen = true ∧ a = slotOf c + 8 * h.ssem.toNat + SEM_VALUE.off)

/-- Counters of traffic: flits of the mesh nodes, what the cluster routers send out, reads and writes of the HBM controllers
(R200-R202). -/
def TrafficReg (a : Nat) : Prop :=
  ∃ e k, a = meshBlk e + MESH_CNT_FLITS.off ∨ a = clBlk e k + CL_RT_CNT_OUT.off
    ∨ a = hbmBlk e k + HBM_CNT_RD.off ∨ a = hbmBlk e k + HBM_CNT_WR.off

/-- A home on die `e` serves what die `d` asks of it at once: it is the die's own, or the die is in Run (R420). -/
def Awake (s : State) (d e : Nat) : Prop := d = e ∨ (belowRun s e = false ∧ waitsAt s e = false)

/-- What the ALU operation with a code makes of two words (R78). -/
def AluSays (op : Nat) (a b v : Word) : Prop :=
  match op with
  | 0 => v.toNat = (a.toNat + b.toNat) % 2 ^ 64
  | 1 => v.toInt = (a.toInt - b.toInt).bmod (2 ^ 64)
  | 2 => ∀ i, v.getLsbD i = (a.getLsbD i && b.getLsbD i)
  | 3 => ∀ i, v.getLsbD i = (a.getLsbD i || b.getLsbD i)
  | 4 => ∀ i, v.getLsbD i = (a.getLsbD i != b.getLsbD i)
  | 5 => v.toNat = a.toNat * 2 ^ (b.toNat % 64) % 2 ^ 64
  | 6 => v.toNat = a.toNat / 2 ^ (b.toNat % 64)
  | 7 => v.toInt = a.toInt / 2 ^ (b.toNat % 64)
  | 8 => v.toNat = a.toNat * b.toNat % 2 ^ 64
  | 9 => v.toNat = min a.toNat b.toNat
  | 10 => v.toNat = max a.toNat b.toNat
  | _ => False

/-- The condition of a branch with a code (R79). -/
def BranchTaken (f : Nat) (a b : Word) : Prop :=
  match f with
  | 0 => True
  | 1 => a = b
  | 2 => a ≠ b
  | 3 => a.toNat < b.toNat
  | 4 => b.toNat ≤ a.toNat
  | 5 => a.toInt < b.toInt
  | _ => b.toInt ≤ a.toInt

/-- No engine of a core has an instruction that it has not executed. -/
def EnginesIdle (k : CoreSt) : Prop := ∀ j < 6, ∀ o ∈ engQueue k j, o.done = true

/-- Whether an address names a register (R176). -/
def isRegister (l : Nat) : Prop := ∃ o, homeOf l = some (.reg o)

/-- An absolute byte of memory outside `n` bytes from `a` is as before. -/
def MemoryBut (s t : State) (a n : Nat) : Prop := ∀ b, b < a ∨ a + n ≤ b → mget t.mem b = mget s.mem b

/-- The die that a command names as its own. -/
def dieOf (i : Instr) : Option Die :=
  match i with
  | .instructionComplete c _ | .loadDataReturn c _ | .engineQueueFree c | .semaphoreWaitRelease c | .fenceRelease c
  | .conveyorSlotFree c _ | .coreWake c _ | .coreWtimeExpiry c | .watchdog c | .coreDone c | .coreClrcnt c
  | .coreReset c _ | .coreRun c | .semWrite c _ _ | .meClrcnt c _ | .veClrcnt c | .sfeClrcnt c | .slotSwap c _ => some c.die
  | .scClrcnt c | .scHeadWrite c _ | .scTailWrite c _ | .scEvent c _ | .dmaClrcnt c | .pauseall c _ | .gcClrcnt c
  | .burstGrant c | .gcCommand c => some c.die
  | .chClrcnt c | .chPause c _ | .chAbort c | .chClear c | .chDq c _ | .descriptorHead c | .burstReadReturn c _
  | .writeAck c | .chainedDescriptorArrival c _ | .dmaAgeExpiry c | .dmaTimeout c | .channelDrainComplete c => some c.die
  | .barrierRelease d _ _ | .hbmSpareStart d _ _ | .redClrcnt d | .styClrcnt d | .pluClrcnt d | .lkClrcnt d
  | .lkRetrain d | .lkEnable d _ | .dvfsRequest d _ | .pwrClkselWrite d _ | .padholdRelease d _ | .pwait d
  | .registerWrite (.power d) _ _ | .spareCopyDone d _ | .rowRepair d _ _ | .meshSlip d _ | .meshFlitCrcError d _
  | .pluLookup d | .pluComplete d | .redPoll d | .redTimeout d | .styMessage d _ | .styBroadcast d _ | .dieClose d
  | .dieStepFailed d | .flitReceive d _ _ _ | .ackTimer d | .replayTimeout d | .laneFail d _ | .swap d _
  | .swapack d _ _ | .alignmentBlock d _ | .neg d _ | .negResend d | .lossOfLight d | .trainingPhaseComplete d _
  | .read d _ | .write d _ | .rdata d _ | .wack d _ | .notice d _ | .count d _ | .crierFlush d | .crierExpiry d _
  | .dvfsRampDone d | .entryPoint d | .wakeEvent d _ | .exitStep d | .pwrTimerExpiry d | .meshRecentreComplete d _ _
  | .rowRepairDone d _ => some d
  | .memoryRequest r => some r.die
  | i => (coreOf i).map (·.die)

/-- A field of a descriptor by the number that DSET gives it (R68, R78); field 9 is byte 48. -/
def descWord (d : Desc) (f : Nat) : Nat :=
  match f with
  | 0 => d.base.toNat
  | 1 => d.sbase.toNat
  | 2 => d.rows.toNat
  | 3 => d.cols.toNat
  | 4 => d.rstride.toNat
  | 5 => d.srstride.toNat
  | 6 => d.tid.toNat
  | 7 => d.irow.toNat
  | 8 => d.ibase.toNat
  | _ => d.fmt.toNat + 16 * d.bsz.toNat + 64 * b2n d.scaled

/-- The width of that field (R68). -/
def descWidth (f : Nat) : Nat := if f ≤ 1 then 64 else if f ≤ 7 then 32 else if f = 8 then 50 else 7

/-- What DADV by `dr` rows and `dc` columns makes of a descriptor, every condition met (R70). -/
def DadvSays (d : Desc) (dr dc : Int) (v : Desc) : Prop :=
  fmtDefined d.fmt = true
  ∧ (d.scaled = true → dc % blkSize d.bsz = 0)
  ∧ (d.fmt = fE2M1 → dc % 2 = 0)
  ∧ 8 * (v.base.toNat : Int) = 8 * (d.base.toNat + dr * d.rstride.toNat) + dc * fmtBits d.fmt
  ∧ (if d.scaled = true then (v.sbase.toNat : Int) = d.sbase.toNat + dr * d.srstride.toNat + dc / blkSize d.bsz
     else v.sbase = d.sbase)
  ∧ (v.ibase.toNat : Int) = d.ibase.toNat + dr * d.irow.toNat + dc
  ∧ v = { d with base := v.base, sbase := v.sbase, ibase := v.ibase }

/-- The address at XA + IMM. -/
abbrev dataAddr (s : State) (c : CoreId) (o : SeqOp) : Word := xaImm s c.die.val c.n.val o

/-- Where the router sends a request of a core. -/
abbrev coreTarget (s : State) (c : CoreId) (write : Bool) (a : Word) (len : Nat) : Target :=
  checkTarget s c.die.val (c.n.val / 16) (some c.n.val) write a len

/-- The instructions that access memory at XA + IMM: whether they write, and how many bytes (R78). -/
def accesses (c : CoreId) (h : Hdr) (o : SeqOp) : List (Instr × Bool × Nat) :=
  [(.ldx c h o, false, 8), (.stx c h o, true, 8), (.dld c h o, false, 64), (.dst c h o, true, 64)]

/-- The faults that MV, CT and SY find at issue, with CODE and CORE_FADDR (R65, R70, R74-R76, R78, R80, R89). -/
def IssueFault (s : State) (c : CoreId) (h : Hdr) (o : SeqOp) (i : Instr) (code : Nat) (faddr : Word) : Prop :=
  let k := coreAt s c
  let target : Int := pcOf s c.die.val c.n.val + 16 * sext 24 o.imm.toNat
  let inside := 0 ≤ target ∧ target < 0x180000
  let len := o.imm.toNat / 2 ^ 32 % 2 ^ 16
  match code with
  | 0x01 => faddr = 0 ∧ ((i = .alu c h o ∧ 11 ≤ o.func.toNat % 16) ∨ (i = .dset c h o ∧ 10 ≤ o.func.toNat)
      ∨ (i = .br c h o ∧ o.func.toNat % 8 = 7) ∨ (i = .loop c h o ∧ len = 0)
      ∨ ((i = .ssig c h o ∨ i = .swait c h o) ∧ o.imm.toNat / 2 ^ 16 % 2 ^ 16 = 0))
  | 0x03 => faddr = 0 ∧ i = .dadv c h o
      ∧ ∀ v, ¬ DadvSays (aget k o.ad) (sext 32 o.imm.toNat) (sext 32 (o.imm.toNat / 2 ^ 32)) v
  | 0x04 => (∃ p ∈ accesses c h o, i = p.1
        ∧ (coreTarget s c p.2.1 (dataAddr s c o) p.2.2 = .unmapped faddr
          ∨ (coreTarget s c p.2.1 (dataAddr s c o) p.2.2 = .fenced ∧ faddr = dataAddr s c o)))
      ∨ (¬ inside ∧ faddr = slotAddr s c.die.val c.n.val 0 + BitVec.ofInt 64 target
        ∧ (i = .call c h o
          ∨ (i = .br c h o ∧ o.func.toNat % 8 ≤ 6 ∧ BranchTaken (o.func.toNat % 8) (xget k o.xa) (xget k o.xb))))
  | 0x05 => faddr = dataAddr s c o ∧ ∃ p ∈ accesses c h o, i = p.1 ∧ faddr.toNat % p.2.2 ≠ 0
      ∧ ∃ m e l, coreTarget s c p.2.1 faddr p.2.2 = .here e l ∨ coreTarget s c p.2.1 faddr p.2.2 = .away m e l
  | 0x07 => faddr = 0 ∧ ((i = .loop c h o ∧ len ≠ 0 ∧ 4 ≤ k.loops.length)
      ∨ (i = .brk c h o ∧ ∀ f ∈ k.loops.head?, f.depth < k.rets.length)
      ∨ (i = .ret c h o ∧ ∃ f ∈ k.loops.head?, f.depth = k.rets.length)
      ∨ (i = .br c h o ∧ o.func.toNat % 8 ≤ 6 ∧ BranchTaken (o.func.toNat % 8) (xget k o.xa) (xget k o.xb) ∧ inside
        ∧ ∃ f ∈ k.loops.head?, f.depth = k.rets.length ∧ ¬ ((f.start : Int) ≤ target ∧ target < f.stop)))
  | 0x08 => faddr = 0 ∧ ((i = .call c h o ∧ inside ∧ 8 ≤ k.rets.length)
      ∨ (i = .ret c h o ∧ k.rets = [] ∧ ∀ f ∈ k.loops.head?, f.depth ≠ 0))
  | 0x09 => faddr = 0 ∧ i = .bar c h o
      ∧ barMember s c.die.val c.n.val (o.func.getLsbD 0)
          (if o.func.getLsbD 0 then o.imm.toNat % 4 else o.imm.toNat % 8) = false
  | _ => False

/-- The counters that a CLRCNT command clears, as spans of addresses (R94, R118, R147, R173, R221, R222, R250, R277, R310-R312,
R344). -/
def counterSpans (i : Instr) : List (Nat × Nat) :=
  let span (b lo hi : Nat) : Nat × Nat := (b + lo, b + hi)
  match i with
  | .coreClrcnt c => [span (slotOf c) 0x400 0x428]
  | .meClrcnt c k => [span (meBlk c.die.val c.n.val k.val) 0x18 0x28]
  | .veClrcnt c => [span (veBlk c.die.val c.n.val) 0x10 0x20]
  | .sfeClrcnt c => [span (sfeBlk c.die.val c.n.val) 0x20 0x30]
  | .scClrcnt c => [span (clBlk c.die.val c.cl.val) 0x120 0x120, span (clBlk c.die.val c.cl.val) 0x130 0x188]
  | .dmaClrcnt c => span (dmaBlk c.die.val c.cl.val) 0x20 0x20
      :: (List.range 32).map fun k => span (chBlk c.die.val c.cl.val k) 0x68 0x98
  | .chClrcnt c => [span (chBlk c.die.val c.cl.val c.ch.val) 0x68 0x98]
  | .gcClrcnt c => [span (gcBlk c.die.val c.cl.val) 0x10 0x20]
  | .redClrcnt d => [span (redBlk d.val) 0x30 0x38]
  | .styClrcnt d => [span (styBlk d.val) 0x30 0x38]
  | .pluClrcnt d => [span (pluBlk d.val) 0x20 0x30]
  | .lkClrcnt d => [span (linkBlk d.val) 0x40 0x80]
  | _ => []

/-- A core after a core reset (R96): what it clears, and what it leaves. -/
structure CoreIsReset (s t : State) (c : CoreId) : Prop where
  x : ∀ k, xget (coreAt t c) k = 0
  a : ∀ k, aget (coreAt t c) k = Desc.zero
  sems : ∀ k < 64, semVal t c.die.val c.n.val k = 0
  stacks_ : (coreAt t c).loops = [] ∧ (coreAt t c).rets = []
  queues : (coreAt t c).eng = [] ∧ (coreAt t c).conv = [] ∧ (coreAt t c).held = []
  acc : (coreAt t c).acc = []
  buffer : (coreAt t c).ibuf = none
  hold : (coreAt t c).hold = none
  fault : regWord t (slotOf c + 0x20) = 0
  pc : pcOf t c.die.val c.n.val = pcOf s c.die.val c.n.val
  counters : ∀ i < 6, regWord t (slotOf c + 0x400 + 8 * i) = regWord s (slotOf c + 0x400 + 8 * i)
  cores : OtherCores s t c
  memory : SameMemory s t
  regs : ∀ r, ¬ (slotOf c ≤ r ∧ r < slotOf c + 0x2000) → regWord t r = regWord s r

/-- Memory with pieces of bytes stored one after the other. -/
def storedAll (m : List Host.Cell) (ws : List (Nat × List Byte)) : List Host.Cell := ws.foldl (fun m w => mputs m w.1 w.2) m

/-- Every byte of memory is what storing the pieces leaves, and no other byte has changed. -/
def Stored (s t : State) (ws : List (Nat × List Byte)) : Prop := ∀ b, mget t.mem b = mget (storedAll s.mem ws) b

/-- An instruction has run and stored pieces of bytes: as `Ran`, but for those bytes and the instruction buffers that hold
some of them (R83). -/
structure RanStore (s t : State) (c : CoreId) (p : Nat) (k : CoreSt) (V : Nat → Nat) (R : Nat → Prop)
    (ws : List (Nat × List Byte)) : Prop where
  pc : pcOf t c.die.val c.n.val = p
  sems : ∀ q < 64, semVal t c.die.val c.n.val q = V q
  core : coreAt t c = { k with ibuf := (coreAt t c).ibuf }
  regs : ∀ a, ¬ R a → regWord t a = regWord s a
  cores : ∀ (e : Die) (m : Fin 256), (⟨e, m⟩ : CoreId) ≠ c →
    getCore t e.val m.val = { getCore s e.val m.val with ibuf := (getCore t e.val m.val).ibuf }
  memory : Stored s t ws
  rest : t = { s with regs := t.regs, cores := t.cores, mem := t.mem, poison := t.poison, upsets := t.upsets }

/-- A queue header with the fields `q` stands on the core's own die at `l`, and an instruction with these operands reads it
without a fault (R282, R284, R286). -/
structure HeaderAt (s : State) (c : CoreId) (o : SeqOp) (kinds : List Nat) (l : Nat) (q : QHdr) : Prop where
  encoding : qEncOk o = true
  target : coreTarget s c false (qAddr s c.die.val c.n.val o) 64 = .here c.die.val l
  aligned : (qAddr s c.die.val c.n.val o).toNat % 64 = 0
  plain : ¬ isRegister l
  sound_ : memSound s c.die.val l 64 = true
  good : qhdrOk kinds c.n.val (peek s c.die.val l 64) = true
  fields : q = qhdrOf (peek s c.die.val l 64)

/-- A core whose schedule account a queue instruction has set (R285). -/
def acctAfter (k : CoreSt) (o : SeqOp) : CoreSt :=
  if o.func.toNat / 16 = 0 then k
  else { k with acct := BitVec.ofNat 2 (o.func.toNat / 16 - 1), reason := BitVec.ofNat 2 (o.imm.toNat / 2 ^ 48 % 4) }

/-- A write of a core that is performed on the module (R186, R190, R193). -/
structure WriteLands (s : State) (c : CoreId) (a : Word) (len e l : Nat) : Prop where
  target : coreTarget s c true a len = .here e l
  plain : ¬ isRegister l
  up : routeDown s c.die.val e = false
  alive : deadIn s e l len = none
  awake : Awake s c.die.val e

/-- A 64-byte command at XA + IMM that the sequencer reads without a fault: it stands on die `e` at `l` (R204, R244, R294). -/
structure CommandAt (s : State) (c : CoreId) (o : SeqOp) (unit : Option Nat) (e l : Nat) : Prop where
  target : checkTarget s c.die.val (c.n.val / 16) unit false (dataAddr s c o) 64 = .here e l
  aligned : (dataAddr s c o).toNat % 64 = 0
  plain : ¬ isRegister l
  up : routeDown s c.die.val e = false
  sound_ : memSound s e l 64 = true
  awake : Awake s c.die.val e

/-- A descriptor has entered a channel's queue, and an idle channel has left IDLE: for RUN, or for PAUSING where it is paused
(R204, R220).  No other channel has changed. -/
structure DescriptorQueued (s t : State) (d cl k : Nat) (q : QDesc) : Prop where
  queue : getChan t d cl k = { getChan s d cl k with queue := (getChan s d cl k).queue ++ [q] }
  others : ∀ e b j, (e, b, j) ≠ (d, cl, k) → cl < 16 → k < 32 → b < 16 → j < 32 → getChan t e b j = getChan s e b j
  state : chanState t d cl k
    = if chanState s d cl k = 0 then (if pauseBit s d cl k = true then 3 else 1) else chanState s d cl k

/-- A channel of a statement. -/
abbrev chanAt (s : State) (c : ChId) : ChanSt := getChan s c.die.val c.cl.val c.ch.val

/-- STATE of a channel. -/
abbrev chanMode (s : State) (c : ChId) : Nat := chanState s c.die.val c.cl.val c.ch.val

/-- First address of a channel's registers. -/
abbrev chanBase (c : ChId) : Nat := chBlk c.die.val c.cl.val c.ch.val

/-- Every other channel is as before. -/
def OtherChannels (s t : State) (c : ChId) : Prop := ∀ e : ChId, e ≠ c → chanAt t e = chanAt s e

/-- No descriptor of a channel waits to be noted complete. -/
def NoneToComplete (x : ChanSt) : Prop := ∀ f ∈ x.finishing.head?, ¬ (f.issued = true ∧ ∀ b ∈ x.bursts, f.serial < b.serial)

/-- STATE after PAUSE is written (R217, R220): `p` whether it or PAUSEALL is set. -/
def pausedState (p quiet : Bool) (st : Nat) : Nat :=
  if p then (if st = 1 ∨ st = 2 then 3 else st)
  else if st = 3 ∨ st = 4 then (if quiet then 0 else 1)
  else st

/-- An error has stopped a channel: it is recorded, nothing of the head is issued any more, and memory is as before
(R219). -/
structure ChannelStops (s t : State) (c : ChId) (code : Nat) (addr : Word) : Prop where
  state : chanMode t c = 5
  err : rf t (chanBase c) CH_STATUS_ERR = code
  addr : regWord t (chanBase c + CH_ERRADDR.off) = addr
  head : (chanAt t c).head = none
  others : OtherChannels s t c
  memory : SameMemory s t
  cores : t.cores = s.cores

/-- The oldest outstanding burst of a channel that reads, or that writes. -/
def FirstBurst (x : ChanSt) (writing : Bool) (i : Nat) (b : Burst) : Prop :=
  x.bursts[i]? = some b ∧ b.writing = writing ∧ ∀ j < i, ∀ y, x.bursts[j]? = some y → y.writing ≠ writing

/-- A grant is counted by the engine and by its channel, and its level's pointer stands behind the channel (R25, R210, R212);
no other channel has changed. -/
structure GrantCounted (s t : State) (c : ClId) (lv : Nat) (k : Fin 32) : Prop where
  engine : regWord t (dmaBlk c.die.val c.cl.val + DMA_CNT_GRANT.off)
    = regWord s (dmaBlk c.die.val c.cl.val + DMA_CNT_GRANT.off) + 1
  channel : regWord t (chBlk c.die.val c.cl.val k.val + CH_CNT_BURSTS.off)
    = regWord s (chBlk c.die.val c.cl.val k.val + CH_CNT_BURSTS.off) + 1
  pointer : tget 0 t.dmaPtr ((c.die.val * 16 + c.cl.val) * 4 + lv) = (k.val + 1) % 32
  others : OtherChannels s t ⟨c.die, c.cl, k⟩
  aged : (chanAt t ⟨c.die, c.cl, k⟩).aged = false

/-- The scalar registers after `k` has been written: x0 keeps nothing (R67). -/
def ScalarsAfter (s t : State) (c : CoreId) (k : BitVec 5) (v : Word) : Prop :=
  ∀ j, xget (coreAt t c) j = if j = 0 then 0 else if j = k then v else xget (coreAt s c) j

/-- The descriptor registers after `k` has been written. -/
def DescsAfter (s t : State) (c : CoreId) (k : BitVec 4) (v : Desc) : Prop :=
  ∀ j, aget (coreAt t c) j = if j = k then v else aget (coreAt s c) j

/-- A fault of a core is recorded (R89, R90): STATE is FAULTED, the fault registers name it, and what the core had computed
is as before. -/
structure FaultRecorded (s t : State) (c : CoreId) (src code : Nat) (fpc faddr : Word) : Prop where
  state : coreState t c.die.val c.n.val = stFAULTED
  fault : regWord t (slotOf c + 0x20) = BitVec.ofNat 64 (src * 32 + code)
  fpc : regWord t (slotOf c + 0x28) = fpc
  faddr : regWord t (slotOf c + 0x30) = faddr
  x : (coreAt t c).x = (coreAt s c).x
  a : (coreAt t c).a = (coreAt s c).a
  acc : (coreAt t c).acc = (coreAt s c).acc
  tiles : (coreAt t c).tiles = (coreAt s c).tiles
  hold : (coreAt t c).hold = none
  sems : ∀ q < 64, semVal t c.die.val c.n.val q = semVal s c.die.val c.n.val q
  pc : pcOf t c.die.val c.n.val = pcOf s c.die.val c.n.val
  cores : OtherCores s t c
  memory : SameMemory s t

/-! The engines. -/

/-- An engine instruction that issues at once onto an engine with nothing to do, no unit of memory and no conveyor tile being
poisoned or disturbed. -/
structure EngineReady (s : State) (c : CoreId) (h : Hdr) (k : Nat) : Prop where
  issues : Issues s c h
  idle : EnginesIdle (coreAt s c)
  loops : NoLoopEnds (coreAt s c) (pcOf s c.die.val c.n.val + 16)
  unheld : tget none (coreAt s c).held k = none
  clean : s.poison = []
  calm : s.upsets = []
  sound_ : ∀ q, ∀ x ∈ tget [] (coreAt s c).conv q, x.upset = .clean

/-- The engine queue of an instruction (R62): 0-3 the MEs, 4 the VE, 5 the SFE. -/
def engineOf (i : Instr) : Option Nat :=
  match i with
  | .mma _ _ o | .mmao _ _ o | .mout _ _ o | .minit _ _ o => some o.me.toNat
  | .vop _ _ _ | .vlp _ _ _ | .vlpld _ _ _ | .vperm _ _ _ | .vred _ _ _ | .vopt _ _ _ => some 4
  | .sfn _ _ _ | .sfd _ _ _ | .stld _ _ _ | .rsmax _ _ _ | .rsexp _ _ _ | .rsmom _ _ _ | .rsctl _ _ _ => some 5
  | _ => none

/-- The fault that the checks of an engine instruction find at issue (R100-R103, R128, R133, R144, R151), if any. -/
def engineCheck (s : State) (c : CoreId) (i : Instr) : Option (Nat × Word) :=
  match issueBody c.die.val c.n.val i s (pcOf s c.die.val c.n.val) with
  | .fault _ code a => some (code, a)
  | _ => none

/-- Whether a function may be evaluated at once (R161, R162). -/
def functionReady (s : State) (c : CoreId) (o : VxOp) : Prop :=
  ∀ q, userSlot o.lop.toNat = some q → tblPending s c.die.val c.n.val q = false
    ∧ (sfGchk o = true → sfGen o = tblGen s c.die.val c.n.val q
        ∨ rfb s (sfeBlk c.die.val c.n.val) SFE_CTRL_GEN_TRAP = false)
    ∧ (tblValid s c.die.val c.n.val q = true ∨ rfb s (sfeBlk c.die.val c.n.val) SFE_CTRL_EMPTY_TRAP = false)

/-- What a VX or SF instruction captures at issue. -/
abbrev captured (s : State) (c : CoreId) (i : Instr) (o : VxOp) : EngOp :=
  vxOp (coreAt s c) i (pcOf s c.die.val c.n.val) o

/-- The conveyor tiles of the sources are there (R131). -/
abbrev tilesThere (s : State) (c : CoreId) (i : Instr) (o : VxOp) : Prop :=
  tilesReady (coreAt s c) (srcsOf o (captured s c i o)) (groupsOf (vxEc o)) = true

/-- What an engine needs, beside checked operands, to execute an instruction whole: conveyor tiles or a conveyor slot, and no
trap that its block enables. -/
def engineCan (s : State) (c : CoreId) (i : Instr) : Prop :=
  let k := coreAt s c
  let d := c.die.val
  match i with
  | .mmao _ _ o | .mout _ _ o => o.dest = true → (tget [] k.conv o.me.toNat).length < 16
  | .vop _ _ o | .vlp _ _ o => tilesThere s c i o
  | .vred _ _ o => tilesReady k [⟨o.s0, aget k (descNum o.s0.num), xget k o.s0.num, o.imm16⟩] (groupsOf (vxEc o)) = true
  | .vperm _ _ o => rfb s (veBlk d c.n.val) VE_CTRL_OOR_TRAP = false
      ∨ (vxEc o ≤ 1024 ∧ ∀ e < vxEc o, permSel s d k o (captured s c i o) e < vxEc o)
  | .vlpld _ _ o => rfb s (veBlk d c.n.val) VE_CTRL_LOP_TRAP = false
      ∨ ∀ p < 32, laneOk (BitVec.ofNat 32 (leNat (peek s d (localOf (xget k o.xa + o.imm).toNat + 4 * p) 4))) = true
  | .vopt _ _ o => optParOk (peek s d (localOf (xget k o.xp).toNat) 32) = true
  | .sfn _ _ o | .sfd _ _ o => functionReady s c o ∧ tilesThere s c i o
  | .stld _ _ o => ∀ q, userSlot o.lop.toNat = some q → tblPending s d c.n.val q = false
      ∧ (imageOk (peek s d (localOf (aget k (descNum o.s0.num)).base.toNat) 2112) = true
        ∨ rfb s (sfeBlk d c.n.val) SFE_CTRL_TBL_TRAP = false)
  | .rsmax _ _ o | .rsexp _ _ o | .rsmom _ _ o =>
      tilesReady k [⟨o.s0, aget k (descNum o.s0.num), xget k o.s0.num, 0⟩] (rsNt o) = true
  | _ => True

/-- The state as an engine finds it when it takes an instruction that has just issued: nothing that the engine reads has
changed. -/
structure AtEngine (s u : State) (c : CoreId) (h : Hdr) : Prop where
  pc : pcOf u c.die.val c.n.val = pcOf s c.die.val c.n.val + 16
  sems : ∀ q < 64, semVal u c.die.val c.n.val q = semTaken s c h q
  core : coreAt u c = { coreAt s c with eng := (coreAt u c).eng, ibuf := (coreAt u c).ibuf }
  regs : ∀ a, ¬ IssueRegs c h a → regWord u a = regWord s a
  cores : OtherCores s u c
  rest : u = { s with regs := u.regs, cores := u.cores }

/-- The views in memory that an instruction writes. -/
def destViews (s : State) (c : CoreId) (i : Instr) : List Desc :=
  let k := coreAt s c
  match i with
  | .mmao _ _ o | .mout _ _ o => if o.dest then [] else [aget k o.dout]
  | .vop _ _ o | .vlp _ _ o | .vperm _ _ o | .vred _ _ o | .sfn _ _ o | .sfd _ _ o | .rsmax _ _ o | .rsexp _ _ o =>
    if o.dkind then [aget k (descNum o.dnum)] else []
  | .vopt _ _ o => [aget k o.dw, aget k o.dm, aget k o.dv]
  | _ => []

/-- Whether an absolute byte belongs to an element or a scale of a view of a die (R70). -/
def inView (d : Nat) (v : Desc) (b : Nat) : Prop :=
  ∃ r < v.rows.toNat,
    (memAt d (localOf (elemAddr v r 0)) ≤ b ∧ b < memAt d (localOf (elemAddr v r 0)) + elemBytes v.fmt v.cols.toNat)
    ∨ (v.scaled = true ∧ memAt d (localOf (scaleAddr v r 0)) ≤ b
      ∧ b < memAt d (localOf (scaleAddr v r 0)) + ceilDiv v.cols.toNat (blkSize v.bsz))

/-- The tile elements that an instruction may write: those of a tile destination, and its statistics tile (R127, R164). -/
def tileTarget (i : Instr) (q p : Nat) : Prop :=
  let dst (o : VxOp) (cnt : Nat) : Prop := o.dkind = false ∧ o.dnum.toNat ≤ q ∧ q * 1024 + p < o.dnum.toNat * 1024 + cnt
  match i with
  | .vop _ _ o | .vlp _ _ o | .vperm _ _ o | .sfn _ _ o | .sfd _ _ o => dst o (vxEc o)
  | .vred _ _ o => dst o (vredCount o)
  | .rsmax _ _ o | .rsexp _ _ o => dst o (1024 * rsNt o) ∨ q = sfTs o
  | .rsmom _ _ o | .rsctl _ _ o => q = sfTs o
  | _ => False

/-- The block of an engine's registers: its status and its counters. -/
def engineReg (c : CoreId) (k a : Nat) : Prop :=
  if k < 4 then a = meBlk c.die.val c.n.val k ∨ a = meBlk c.die.val c.n.val k + ME_CNT_ARRAY.off
  else if k = 4 then a ∈ [veBlk c.die.val c.n.val, veBlk c.die.val c.n.val + VE_CNT_LANE.off,
    veBlk c.die.val c.n.val + VE_CNT_OOR.off]
  else a ∈ [sfeBlk c.die.val c.n.val, sfeBlk c.die.val c.n.val + SFE_CNT_FUNC.off, sfeBlk c.die.val c.n.val + 0x18]

/-- What an executed engine instruction leaves alone: issue has gone on, the instruction awaits its completion at the end of
its queue, and only its destination, its engine's accumulators, conveyors, programs or tables, and its engine's
registers may have changed. -/
structure EngineFrame (s t : State) (c : CoreId) (h : Hdr) (i : Instr) (k : Nat) : Prop where
  pc : pcOf t c.die.val c.n.val = pcOf s c.die.val c.n.val + 16
  sems : ∀ q < 64, semVal t c.die.val c.n.val q = semTaken s c h q
  issued : regWord t (slotOf c + CNT_ISSUE.off) = regWord s (slotOf c + CNT_ISSUE.off) + 1
  queue : ∃ e, e.ins = i ∧ e.done = true ∧ e.pc = pcOf s c.die.val c.n.val
    ∧ engQueue (coreAt t c) k = engQueue (coreAt s c) k ++ [e]
  queues : ∀ j, j ≠ k → engQueue (coreAt t c) j = engQueue (coreAt s c) j
  core : coreAt t c = { coreAt s c with
    eng := (coreAt t c).eng, ibuf := (coreAt t c).ibuf, acc := (coreAt t c).acc, conv := (coreAt t c).conv
    tiles := (coreAt t c).tiles, lps := (coreAt t c).lps, slots := (coreAt t c).slots }
  acc : 4 ≤ k → (coreAt t c).acc = (coreAt s c).acc
  lps : k ≠ 4 → (coreAt t c).lps = (coreAt s c).lps
  slots_ : k ≠ 5 → (coreAt t c).slots = (coreAt s c).slots
  tiles : ∀ q p, p < 1024 → ¬ tileTarget i q p → tileCode (coreAt t c) q p = tileCode (coreAt s c) q p
  regs : ∀ a, ¬ IssueRegs c h a → ¬ engineReg c k a → regWord t a = regWord s a
  memory : ∀ b, (∀ v ∈ destViews s c i, ¬ inView c.die.val v b) → mget t.mem b = mget s.mem b
  cores : OtherCores s t c
  rest : t = { s with regs := t.regs, cores := t.cores, mem := t.mem }

/-- An accumulator after an instruction: `f` gives its elements, and the other accumulators of the core are as before. -/
def AccAfter (s t : State) (c : CoreId) (key : Nat) (f : Nat → Nat → Machine.Num) : Prop :=
  (∀ q, q ≠ key → getAcc (coreAt t c) q = getAcc (coreAt s c) q)
  ∧ ∀ i < 32, ∀ j < 32, accAt (getAcc (coreAt t c) key) i j = f i j

/-- The element that a product accumulates (R99, R101, R107): row `i` of A with column `j` of B, group by group. -/
def productAt (s : State) (d : Nat) (o : MmOp) (a b : Desc) (old : Nat → Nat → Machine.Num) (i j : Nat) : Machine.Num :=
  let e := if o.zero then Machine.Num.zero false else old i j
  if i < (dimsA o.ta a).1 ∧ j < (dimsB o.tb b).2 then
    macRow (mmGroup a.fmt) e
      ((List.range (dimsA o.ta a).2).map fun q => if o.ta then elemNum s d a q i else elemNum s d a i q)
      ((List.range (dimsB o.tb b).1).map fun q => if o.tb then elemNum s d b j q else elemNum s d b q j)
  else e

/-- What the output of an accumulator leaves (R110-R113): the tile at its conveyor's end, or the view's bytes; the flags of
the rounding stay set. -/
def OutputAfter (s t : State) (c : CoreId) (k : Nat) (o : MmOp) (out : Desc) (f : Nat → Nat → Machine.Num) : Prop :=
  let rows := (List.range out.rows.toNat).map fun i => (List.range out.cols.toNat).map fun j => f i j
  let kt := keyFor s c.die.val c.n.val out.tid o.site
  let b := meBlk c.die.val c.n.val k
  (o.dest = true →
    tget [] (coreAt t c).conv k = tget [] (coreAt s c).conv k ++ [(mmTile out kt (o.ornd = 1) rows).1]
    ∧ (∀ q, q ≠ k → tget [] (coreAt t c).conv q = tget [] (coreAt s c).conv q)
    ∧ regWord t b = (mmTile out kt (o.ornd = 1) rows).2.into (regWord s b))
  ∧ (o.dest = false →
    (coreAt t c).conv = (coreAt s c).conv
    ∧ (∀ x, mget t.mem x = mget (writeRows s c.die.val out kt (o.ornd = 1) 0 rows Flags.none).1.mem x)
    ∧ regWord t b = (writeRows s c.die.val out kt (o.ornd = 1) 0 rows Flags.none).2.into (regWord s b))

/-- Element `e` of a source, as the core stands at issue (R125-R127, R131). -/
abbrev sourceAt (s : State) (c : CoreId) (x : Src) (imm : Code) (e : Nat) : Machine.Num :=
  srcNum s c.die.val (coreAt s c) ⟨x, aget (coreAt s c) (descNum x.num), xget (coreAt s c) x.num, imm⟩ e

/-- The elements of a destination that one group fills (R129, R139): tile codes, or the bytes of a view; and the flags. -/
def GroupWritten (s t : State) (c : CoreId) (i : Instr) (o : VxOp) (b : Nat) (xs : List (Machine.Num × Flags)) : Prop :=
  let dst := destOf s c.die.val c.n.val o (captured s c i o)
  let w := writeDest s c.die.val c.n.val dst 0 (xs.map (·.1))
  (o.dkind = false →
    (∀ e < xs.length, tileCode (coreAt t c) o.dnum.toNat e
      = (fmtEncode o.dfmt none (xs.getD e (Machine.Num.zero false, Flags.none)).1).1 % 2 ^ 16)
    ∧ SameMemory s t)
  ∧ (o.dkind = true → (coreAt t c).tiles = (coreAt s c).tiles ∧ ∀ x, mget t.mem x = mget w.1.mem x)
  ∧ ∀ y, y < 4 → (regWord t b).getLsbD y
      = ((regWord s b).getLsbD y || ((w.2.2.2).or (Flags.all (xs.map (·.2)))).nibble.testBit y)

/-- The conveyors after the tiles of conveyor sources have been popped (R131). -/
def Popped (s t : State) (c : CoreId) (l : List Src) (n : Nat) : Prop :=
  ∀ q < 4, tget [] (coreAt t c).conv q
    = (if ∃ x ∈ l, x.kind = 3 ∧ x.num.toNat = q then (tget [] (coreAt s c).conv q).drop n else tget [] (coreAt s c).conv q)

/-! The units of clusters and dies. -/

/-- A unit of cluster `c` of die `d` reads `len` bytes at `a` on the module without an error (R193, R195). -/
def UnitSees (permits : Nat → Nat → Bool) (s : State) (d c : Nat) (a : Word) (len : Nat) (bs : List Byte) : Prop :=
  (len = 0 ∧ bs = []) ∨ (0 < len ∧ ∃ t l, checkTargetF permits s d c none false a len = .here t l
    ∧ routeDown s d t = false ∧ Awake s d t ∧ memSound s t l len = true ∧ bs = peek s t l len)

/-- A write of such a unit lands on the module (R186, R193). -/
def UnitLands (permits : Nat → Nat → Bool) (s : State) (d c : Nat) (a : Word) (len : Nat) : Prop :=
  len = 0 ∨ ∃ t l, checkTargetF permits s d c none true a len = .here t l ∧ routeDown s d t = false
    ∧ deadIn s t l len = none ∧ Awake s d t

/-- A unit has no request to another module that is not settled. -/
def NothingAsked (s : State) (d sunit : Nat) : Prop := ∀ q ∈ s.asked, ¬ (q.die = d ∧ q.sunit = sunit)

/-- Where a unit's write of some bytes goes. -/
abbrev at_ (a : Word) (bs : List Byte) : Nat × List Byte := (memAt (addrDie a) (addrLocal a), bs)

/-- The registers and engine queues of a core are as before a completion: nothing but what is named. -/
def CoresButIbuf (s t : State) : Prop := ∀ e : CoreId, coreAt t e = { coreAt s e with ibuf := (coreAt t e).ibuf }

/-! Command paths. -/

/-- The command of a path: the path and its opcode (R399). -/
def commandOf (i : Instr) : Option (Fin 18 × Nat) :=
  match i with
  | .discover p => some (p, 0x0000)
  | .echo p => some (p, 0x0001)
  | .stallForm p => some (p, 0x0100)
  | .stallDissolve p => some (p, 0x0101)
  | .jobConfig p => some (p, 0x0102)
  | .jobEnd p => some (p, 0x0103)
  | .stallHold p => some (p, 0x0104)
  | .stallRelease p => some (p, 0x0105)
  | .stallQuery p => some (p, 0x0106)
  | .windowMap p => some (p, 0x0200)
  | .progLoad p => some (p, 0x0201)
  | .dataCopy p => some (p, 0x0202)
  | .chainSet p => some (p, 0x0203)
  | .exchSet p => some (p, 0x0204)
  | .stepBegin p => some (p, 0x0300)
  | .stepEnd p => some (p, 0x0301)
  | .stepQuery p => some (p, 0x0302)
  | .protectSet p => some (p, 0x0400)
  | .mirrorAssign p => some (p, 0x0401)
  | .snapRelease p => some (p, 0x0402)
  | .fillStart p => some (p, 0x0403)
  | .fillQuery p => some (p, 0x0404)
  | .restore p => some (p, 0x0405)
  | .pwrSet p => some (p, 0x0500)
  | .pwrQuery p => some (p, 0x0501)
  | .feedSet p => some (p, 0x0502)
  | .attest p => some (p, 0x0600)
  | .certRead p => some (p, 0x0601)
  | .faultQuery p => some (p, 0x0700)
  | .telemRead p => some (p, 0x0701)
  | .counterRead p => some (p, 0x0702)
  | .fwStage p => some (p, 0x0800)
  | .fwActivate p => some (p, 0x0801)
  | .fwQuery p => some (p, 0x0802)
  | .linkQuery p => some (p, 0x0900)
  | .linkService p => some (p, 0x0901)
  | .topoLoad p => some (p, 0x0902)
  | _ => none

/-- A path's packet carries a command's opcode and may execute now: no stall turns it away, and no other command of its kind
is in progress (R396, R397, R472). -/
structure Takes (s : State) (p : Fin 18) (k : Pkt) (op : Nat) : Prop where
  current : (getPath s p.val).current = some k
  opcode : k.opcode.toNat = op
  stall : stallCheck s k = none
  free : heldBack s p k = false

/-- A command executes: its effect is the state `u`, and its path replies with a status and data and moves on. -/
def Answers (s : State) (i : Instr) (p : Fin 18) (k : Pkt) (u : State) (st : Nat) (data : List Byte) : Prop :=
  exec i s = .next (answer (setSerial u k none) p.val st data)

/-! Registers, memory and the mesh. -/

/-- A register whose write does no more than its access codes say (R10, R11). -/
def byAccess (p : RegAt) : Bool :=
  match p.blk with
  | .mesh => true
  | .die => p.off != 0x88
  | .hbm | .link | .red | .sty | .dma | .ve | .sfe => p.off != 8
  | .me => p.off != 0x10
  | .core => p.off != 8 && p.off != 0x18
  | _ => false

/-- What a write of `v` leaves of each field of the register at `a`, by its access code (R10, R11); no other register has
changed. -/
structure FieldsWritten (s t : State) (a : Nat) (p : RegAt) (v : Word) : Prop where
  fields : ∀ r ∈ regRows p, fget (regWord t a) r.fld
    = match r.acc with
      | .rw => if reservedValue p.blk r.fld (fget v r.fld) then fget (regWord s a) r.fld else fget v r.fld
      | .w1c => fget (regWord s a &&& ~~~ v) r.fld
      | .w1s => fget (regWord s a ||| v) r.fld
      | _ => fget (regWord s a) r.fld
  others : ∀ b, b ≠ a → regWord t b = regWord s b
  rest : t = { s with regs := t.regs }

/-- Where a request goes: checked by its router, or from a source that no fence checks (R174, R175, R193, R194). -/
def requestTarget (s : State) (r : MemReq) (len : Nat) : Target :=
  match srcRouter r.src with
  | some (c, core) => checkTarget s r.die.val c core r.write r.addr len
  | none => freeTarget s r.die.val r.addr len

/-- A request reaches its home on the module at die `t`, address `l`, where nothing has to be woken for it (R420). -/
structure Performed (s : State) (r : MemReq) (len t l : Nat) : Prop where
  target : requestTarget s r len = .here t l
  awake : requestWake s r t l = s ∧ requestWaits s r t l = false ∧ (t = r.die.val ∨ belowRun s t = false)

/-- Every register is as before, but for the counters of traffic and the registers named. -/
def RegsBut (s t : State) (l : List Nat) : Prop := ∀ a, ¬ TrafficReg a → a ∉ l → regWord t a = regWord s a

/-- Every register is as before, but for those named. -/
def OnlyRegs (s t : State) (l : List Nat) : Prop := ∀ a, a ∉ l → regWord t a = regWord s a

/-! Links. -/

/-- The link of a die. -/
abbrev linkAt (s : State) (d : Die) : LinkSt := getLink s d.val

/-- Every other link is as before. -/
def OtherLinks (s t : State) (d : Die) : Prop := ∀ e, e ≠ d.val → getLink t e = getLink s e

/-- A link as its first training phase finds it (R327). -/
def signalPhase (l : LinkSt) (retrain : Bool) : LinkSt :=
  { l with phase := .signal, retrain := retrain, negSent := false, negAcked := false, negGot := false, swapRx := none
           nextTx := none, ctlq := [] }

/-- A link begins to train; a retrain is counted (R327, R344).  `l` is the link before. -/
structure Trains (s t : State) (d : Die) (retrain : Bool) (l : LinkSt) : Prop where
  state : lkState t d.val = 1
  link : linkAt t d = { signalPhase l retrain with attempts := 0, incompatible := false }
  counted : regWord t (linkBlk d.val + LK_CNT_RETRAIN.off)
    = regWord s (linkBlk d.val + LK_CNT_RETRAIN.off) + BitVec.ofNat 64 (b2n retrain)
  others : OtherLinks s t d

/-- The lane map by which a link's next flit is dealt: an alignment block that goes before it brings in the one agreed (R319,
R323). -/
def mapAhead (s : State) (d : Die) : BitVec 7 :=
  if (linkAt s d).slot = 16383 then (linkAt s d).nextTx.getD (txUse s d.val) else txUse s d.val

/-- What leaves with a flit (R319): every 16,384th slot an alignment block before it, and its encoded bytes on the lanes. -/
def flitOut (s : State) (d : Die) (bytes : List Byte) : List Emission :=
  (if (linkAt s d).slot = 16383 then [.alignment d.val (mapAhead s d)] else [])
    ++ [.flit d.val bytes (dealLanes ((List.range 7).filter fun k => (mapAhead s d).getLsbD k) (linkAt s d).deal (encodeFlit bytes))]

/-- A flit of this end leaves (R318, R320): its bytes, what the link then holds, and the count of DATA and CONTROL flits. -/
structure FlitSent (s t : State) (d : Die) (ty : Nat) (nak : Bool) (pstart : Nat) (payload bytes : List Byte) : Prop where
  flit : bytes = flitBytes ty (linkAt s d).txSeq ((linkAt s d).rxSeq - 1) nak ((linkAt s d).owed.headD (0, false, 0)) pstart
    payload
  sent : t.outbox = s.outbox ++ flitOut s d bytes
  seq : (linkAt t d).txSeq = (linkAt s d).txSeq + (if ty = 0 then 0 else 1)
  kept : (linkAt t d).replay = (linkAt s d).replay ++ (if ty = 0 then [] else [((linkAt s d).txSeq, bytes)])
  credits : (linkAt t d).owed = (linkAt s d).owed.tail ∧ (linkAt t d).txCredit = (linkAt s d).txCredit
    ∧ (linkAt t d).txShared = (linkAt s d).txShared
  acked : (linkAt t d).sinceAck = 0 ∧ (linkAt t d).rxSeq = (linkAt s d).rxSeq
  lanes : txUse t d.val = mapAhead s d
  slot : (linkAt t d).slot = (if (linkAt s d).slot = 16383 then 1 else (linkAt s d).slot + 1)
  counted : regWord t (linkBlk d.val + LK_CNT_TXFLIT.off)
    = regWord s (linkBlk d.val + LK_CNT_TXFLIT.off) + (if ty = 0 then 0 else 1)

/-- The flits that leave, by die and bytes. -/
def flitsOf (l : List Emission) : List (Nat × List Byte) :=
  l.filterMap fun x => match x with
    | .flit d b _ => some (d, b)
    | _ => none

/-- A control message of a link can go at once, and nothing else waits for its place (R320, R324, R418). -/
structure ControlGoes (s : State) (d : Die) : Prop where
  empty : (linkAt s d).ctlq = [] ∧ (linkAt s d).txq = []
  window : (linkAt s d).replay.length < 1024
  awake : (getPow s d.val).linkIdle = false

/-- What a flit that arrives must be to be accepted (R319, R320). -/
def FlitGood (l : LinkSt) (flit : List Byte) (decoded : Bool) : Prop :=
  decoded = true ∧ leAt flit 252 4 = crc32c (slice flit 0 252) ∧ leAt flit 0 2 / 4096 ≤ 2
    ∧ leAt flit 0 2 % 4096 = l.rxSeq.toNat

/-- The packet waits, last, on the link that leads to a module (R335). -/
def QueuedFor (s t : State) (d m opc : Nat) (p : TPkt) : Prop :=
  ∃ r, routeRow s d m = some r ∧ (getLink t (6 * r + d % 6)).txq = (getLink s (6 * r + d % 6)).txq ++ [(opc, p)]

/-- The link that leads from a die to a module is neither UP nor negotiating, so that what is queued for it stays there; the way
to it along the column is open. -/
def LinkWaits (s : State) (d m : Nat) : Prop :=
  ∃ r, routeRow s d m = some r ∧ lkState s (6 * r + d % 6) ≠ 2 ∧ lkState s (6 * r + d % 6) ≠ 3
    ∧ routeDown s d (6 * r + d % 6) = false

/-- The answer to a request, as its home sends it (R325, R326). -/
def homeAnswer (s : State) (home : Nat) (p : TPkt) (status : Nat) (data : List Byte) : TPkt :=
  { hop := 0, epoch := BitVec.ofNat 8 (rf s (linkBlk home) LK_EPOCH_EPOCH), len := BitVec.ofNat 9 data.length, tag := p.tag
    addr := 0, smod := p.smod, sdie := p.sdie, sunit := p.sunit, status := BitVec.ofNat 8 status, data := data }

/-- The partner that a link's negotiation found is the one that a topology map names, in the same column (R331, R334). -/
def WiredAs (s : State) (t : List Byte) (d : Nat) : Prop :=
  rf s (linkBlk d) LK_PARTNER_COL = d % 6
    ∧ ∀ w, w = leAt t (64 + 16 * Config.position + 2 * (d / 6)) 2 → Config.position < leAt t 2 2 → 32768 ≤ w →
      rf s (linkBlk d) LK_PARTNER_POS = w % 1024 ∧ rf s (linkBlk d) LK_PARTNER_ROW = w / 1024 % 8

/-! Packets on their paths. -/

/-- A path with nothing to do. -/
def PathIdle (s : State) (p : Nat) : Prop :=
  (getPath s p).current = none ∧ (getPath s p).accepted = [] ∧ (getPath s p).replies = []

/-- A packet's version is served (R395). -/
def VersionServed (s : State) (k : Pkt) : Prop := (versions s).1 ≤ k.version.toNat ∧ k.version.toNat ≤ (versions s).2

/-- The sequence state that a path keeps of a packet's sender (R394, R408). -/
def seqOf (s : State) (p : Nat) (k : Pkt) : Option SeqSt := (getPath s p).seqs.find? fun x => x.sender == seqKey p k.sender

/-- The sequence number of a packet is the next one, or its path keeps no state of its sender (R394). -/
def InSequence (s : State) (p : Nat) (k : Pkt) : Prop := ∀ x ∈ seqOf s p k, k.seq = x.seq + 1

/-- No path but one has a packet ready to be taken up (R396). -/
def OthersQuiet (s : State) (p : Nat) : Prop := ∀ q, q < 18 → q ≠ p → pathReady s q = false

/-- A packet in sequence that passes every check of its header waits to execute on its path (R394, R472). -/
def TakenUp (s t : State) (p : Nat) (k : Pkt) : Prop :=
  (getPath t p).current = some k ∧ (getPath t p).accepted = []
    ∧ seqOf t p k = some ⟨seqKey p k.sender, k.seq, none⟩ ∧ ∀ q, q ≠ p → getPath t q = getPath s q

/-- An error stops a queue: ERR and ERRCODE are set, and a QUEUE_ERROR event is posted (R390, R391). -/
structure QueueStops (s t : State) (q code : Nat) : Prop where
  err : rfb t (queueBlk q) Q_STATUS_ERR = true
  errCode : rf t (queueBlk q) Q_STATUS_ERRCODE = code
  event : heldEvents (if q = 16 then 0 else eventRoom s)
      (s.torter.events ++ [⟨0x07F2, [BitVec.ofNat 8 q, BitVec.ofNat 8 code]⟩]) ≤ 256 →
    t.torter.events = s.torter.events ++ [⟨0x07F2, [BitVec.ofNat 8 q, BitVec.ofNat 8 code]⟩]
  paths : t.torter.paths = s.torter.paths
  memory : t.mem = s.mem

/-- The entry that the coalescing of a queue counts (R391): whether it fires the vector, and what it then counts. -/
def coalesced (s : State) (q : Nat) : Bool × Nat :=
  let c := rf s (queueBlk q) Q_COAL_COUNT
  if c = 0 then (false, (getRing s q).coal)
  else if c ≤ (getRing s q).coal + 1 then (true, 0)
  else (false, (getRing s q).coal + 1)

/-- A queue is off with its indices 0 (R382, R390). -/
structure QueueOff (t : State) (q : Nat) : Prop where
  off : queueOn t q = false
  indices : regWord t (queueBlk q + 0x18) = 0 ∧ regWord t (queueBlk q + 0x20) = 0 ∧ regWord t (queueBlk q + 0x28) = 0
  ring : { getRing t q with discard := false } = RingSt.reset
  dropped : q < 16 → (getPath t q).accepted = [] ∧ (getPath t q).replies = []

/-! The SPDM responder, power, boot. -/

/-- An SPDM response with the content that the manual states (R450; log 9). -/
structure SpdmAnswer (s t : State) (request : Nat) (req content : List Byte) : Prop where
  sent : ∃ v, t.outbox = s.outbox ++ [.spdm content (Config.spdmBody request v req content s.fresh)]
  fresh : t.fresh = s.fresh + 1
  rest : t = { s with outbox := t.outbox, fresh := t.fresh, secure := t.secure }

/-- The request is answered with ERROR and changes nothing (R450). -/
abbrev spdmError (s : State) (code : Nat) : Host.Outcome State Fault Refusal :=
  .next { s with outbox := s.outbox ++ [.spdmError code] }

/-- What a module reset takes and leaves (R435): registers, memory and stalls are gone, boot is before B1; what flash, straps and
cartridges hold stays. -/
structure ModuleReset (s t : State) (cause : Nat) : Prop where
  regs : t.regs = []
  memory : t.mem = [] ∧ t.poison = []
  units : t.cores = [] ∧ t.chans = [] ∧ t.links = [] ∧ t.dies = []
  controller : t.torter = { Torter.reset with strap := s.torter.strap }
  boot : t.secure.stage = 0 ∧ t.secure.recovery = false ∧ t.secure.resetCause.toNat = cause
  flash : t.secure.banks = s.secure.banks ∧ t.secure.counter = s.secure.counter
    ∧ t.secure.repairLog = s.secure.repairLog ∧ t.secure.spareUsed = s.secure.spareUsed ∧ t.secure.variant = s.secure.variant
    ∧ t.secure.physid = s.secure.physid ∧ t.secure.seed = s.secure.seed ∧ t.secure.signers = s.secure.signers
    ∧ t.secure.variantObj = s.secure.variantObj ∧ t.secure.repairObj = s.secure.repairObj
    ∧ t.secure.calibObj = s.secure.calibObj
  measured : t.secure.mrs = [0, 0, 0, 0, 0, 0] ∧ t.secure.extCount = 0 ∧ t.secure.log = [] ∧ t.secure.sessions = []
  attachment : t.attach = Attach.reset
  queue : t.pending = s.pending

/-- A register of a die's power block. -/
abbrev pwrField (s : State) (d : Die) (f : Fld) : Nat := rf s (pwrBlk d.val) f

/-- The power state of a die of a statement. -/
abbrev powAt (s : State) (d : Die) : PowSt := getPow s d.val

/-- A die leaves a state below Run for a wake event (R422, R426): the exit steps that undo its points are to run. -/
structure Leaves (s t : State) (d : Die) (ev point : Nat) : Prop where
  source : pwrField t d PWR_STATUS_WAKESRC = ev
  point : pwrField t d PWR_STATUS_ABORTPT = point
  pending : pwrField t d PWR_STATUS_PENDING_ON = 0
  exits : powAt t d = takeWake (powAt s d) (pwState s d.val) (exitSteps (entryPoints (pwState s d.val)))

/-- The power state of a die once it has passed a point without saving or losing anything (R423): from AP4 the fabric stands and
the memory is powered down, from AP5 VCORE is at retention, from AP6 the links are idle and the memory refreshes itself, and
from AP7 VCORE is off. -/
def passes (p : PowSt) (k : Nat) : PowSt :=
  { p with
    fabricStopped := p.fabricStopped || k == 4
    hbm := if k = 4 then .powerDown else if k = 6 then .selfRefresh else p.hbm
    vcore := if k = 5 then .retention else if k = 7 then .off else p.vcore
    ramp := if k = 5 then none else p.ramp
    linkIdle := p.linkIdle || k == 6 }

/-- A die's power state but for the step request that it may have been given as its neighbours moved (R414). -/
abbrev powBut (s t : State) (d : Die) : PowSt := { powAt t d with request := (powAt s d).request }

end Sys2Proof.Claims
end

