-- ==== Sys2Proof/Certificates/Slice0/Obligations.lean ====
section
/-! DEFINITION. The statements for the provers. -/

open Sys2Proof Sys2Proof.Machine Sys2Proof.Claims

/-! The queue of commands, reset, memory. -/

/-- A step takes the command at the front of the queue, with the queue's rest; on an empty queue the module idles (the model's
choice: log 5). -/
def Obligations.StepTakesTheFrontCommand : Prop :=
  (∀ (s : State) (i : Instr) (q : List Instr), s.pending = i :: q → step s = exec i { s with pending := q })
  ∧ ∀ s : State, s.pending = [] → step s = .next s

/-- Right after reset every field of every register holds the value of the Reset column of its map (R435). Right after reset no
command waits, memory lists nothing and is canonical, every core is idle with empty registers, and every channel is idle. -/
def Obligations.ResetLeavesTheStatedValues : Prop :=
  (∀ (a : Nat) (p : RegAt), a % 8 = 0 → locate a = some p → ∀ r ∈ regRows p,
     fget (regWord State.reset a) r.fld = r.reset)
  ∧ (State.reset.pending = [] ∧ Memory.wf State.reset.mem = true ∧ (∀ a, mget State.reset.mem a = memDefault)
     ∧ State.reset.poison = [] ∧ State.reset.outbox = []
     ∧ (∀ c : CoreId, coreState State.reset c.die.val c.n.val = stIDLE ∧ pcOf State.reset c.die.val c.n.val = 0
         ∧ (∀ k, xget (coreAt State.reset c) k = 0) ∧ (∀ k, aget (coreAt State.reset c) k = Desc.zero)
         ∧ (coreAt State.reset c).hold = none ∧ ∀ k < 64, semVal State.reset c.die.val c.n.val k = 0)
     ∧ ∀ (d : Die) (cl : Cl) (k : Fin 32), chanState State.reset d.val cl.val k.val = 0
         ∧ getChan State.reset d.val cl.val k.val = ChanSt.reset)

/-- Every step keeps memory in its canonical form. -/
def Obligations.MemoryStaysCanonical : Prop :=
  ∀ s t : State, Memory.wf s.mem = true → step s = .next t → Memory.wf t.mem = true

/-- A command at a die or a row that the part does not have stops, and names why. -/
def Obligations.AbsentUnitsStop : Prop :=
  (∀ (i : Instr) (s : State) (d : Die), dieOf i = some d → ndie s ≤ d.val → exec i s = .fault .noSuchUnit)
  ∧ (∀ (s : State) (r : Fin 6), nrow s ≤ r.val →
      exec (.laserFail r) s = .fault .noSuchUnit ∧ exec (.latchOpen r) s = .fault .noSuchUnit
        ∧ exec (.latchClose r) s = .fault .noSuchUnit)

/-- The word of every well-formed core instruction decodes to it, and what decodes is well formed. -/
def Obligations.CoreWordsRoundTrip : Prop :=
  (∀ (i : Instr) (c : CoreId), coreOf i = some c → wellFormed i = true → ∃ w, encode i = some w ∧ decode c w = some i)
  ∧ ∀ (c : CoreId) (w : BitVec 128) (i : Instr), decode c w = some i → coreOf i = some c ∧ wellFormed i = true

/-! Issue. -/

/-- Nothing of a core's program happens outside RUN, while an issue is held, or while requests sent before a reset are unanswered
(R63, R95, R96). With WEN set and its semaphore at 0 an instruction is held at issue, and nothing else happens (R66). The end
of a wait for a semaphore, for a full engine queue or for the condition of R73 tries the held instruction again (R63, R66,
R71, R73); without such a hold nothing happens. -/
def Obligations.IssueStopsHoldsAndResumes : Prop :=
  (∀ (i : Instr) (c : CoreId) (s : State), coreOf i = some c → dieOk s c.die.val = true →
     (coreState s c.die.val c.n.val ≠ stRUN ∨ (coreAt s c).hold.isSome = true ∨ (coreAt s c).orphans ≠ []) →
     exec i s = .next s)
  ∧ (∀ (i : Instr) (c : CoreId) (s : State), coreOf i = some c → Running s c → pcBacked (pcOf s c.die.val c.n.val) = true →
       fetchOk s c.die.val c.n.val (pcOf s c.die.val c.n.val) = true → (hdrOf i).wen = true → semVal s c.die.val c.n.val (hdrOf i).wsem.toNat = 0 →
       ∃ t, exec i s = .next t
         ∧ coreAt t c = { coreAt s c with hold := some ⟨.sem, i⟩, ibuf := (coreAt t c).ibuf }
         ∧ OtherCores s t c ∧ t = { s with cores := t.cores })
  ∧ (∀ (c : CoreId) (s : State), dieOk s c.die.val = true →
       ∀ p ∈ [(Instr.semaphoreWaitRelease c, HoldWhy.sem), (Instr.engineQueueFree c, HoldWhy.queue),
           (Instr.fenceRelease c, HoldWhy.fence)],
         (∀ i, (coreAt s c).hold = some ⟨p.2, i⟩ → coreOf i = some c → coresClocked s c.die.val = true →
           ∃ t, exec p.1 s = .next t
             ∧ exec i (setCore s c.die.val c.n.val { coreAt s c with hold := none }) = .next t)
         ∧ ((∀ i, (coreAt s c).hold ≠ some ⟨p.2, i⟩) → exec p.1 s = .next s))

/-- A fault found at issue is precise: the instruction takes no effect, and the fault is recorded with its code (R65, R70,
R74-R76, R78, R89). A program counter outside backed core memory raises the address fault, whatever the instruction (R76, R81,
R89); a word that is poisoned in core memory the memory error, with the poisoned unit's address (R195); a word with a reserved
CLASS or OP the illegal-instruction fault (R65). -/
def Obligations.FaultsAtIssueArePrecise : Prop :=
  (∀ (s : State) (c : CoreId) (h : Hdr) (o : SeqOp) (i : Instr) (code : Nat) (faddr : Word), Issues s c h →
     IssueFault s c h o i code faddr →
     ∃ t, exec i s = .next t
       ∧ FaultRecorded s t c 0 code (slotAddr s c.die.val c.n.val (pcOf s c.die.val c.n.val)) faddr)
  ∧ (∀ (i : Instr) (c : CoreId) (s : State), coreOf i = some c → Running s c →
       pcBacked (pcOf s c.die.val c.n.val) = false →
       ∃ t, exec i s = .next t
         ∧ FaultRecorded s t c 0 0x04 (slotAddr s c.die.val c.n.val (pcOf s c.die.val c.n.val))
             (slotAddr s c.die.val c.n.val (pcOf s c.die.val c.n.val)))
  ∧ (∀ (i : Instr) (c : CoreId) (s : State) (l : Nat), coreOf i = some c → Running s c →
       pcBacked (pcOf s c.die.val c.n.val) = true → l = coreAddr c.n.val (pcOf s c.die.val c.n.val) →
       (∀ u, inBuffer (coreAt s c) (pcOf s c.die.val c.n.val) = false → upsetsIn s c.die.val l 16 = [] →
         poisonIn s c.die.val l 16 = some u →
         ∃ t, exec i s = .next t
           ∧ FaultRecorded s t c 0 0x0B (slotAddr s c.die.val c.n.val (pcOf s c.die.val c.n.val))
               (globalAddr s c.die.val u))
       ∧ ((inBuffer (coreAt s c) (pcOf s c.die.val c.n.val) = true ∨ memSound s c.die.val l 16 = true) →
         wordReserved (peek s c.die.val l 16) = true →
         ∃ t, exec i s = .next t
           ∧ FaultRecorded s t c 0 0x01 (slotAddr s c.die.val c.n.val (pcOf s c.die.val c.n.val)) 0))

/-! MV. -/

/-- MOVI, ALU and SRD write their result to XD and nothing else but the counts of issue; x0 keeps nothing (R67, R78). SRD reads
the register as it stands when the instruction issues. DSET sets the field that FUNC names; DADV moves the view's origin by
whole rows and columns, exactly (R70, R78). SWR writes the bits of an RW register of the core's own block; an offset that
holds none takes nothing (R78, R93, R178). -/
def Obligations.RegisterInstructionsWriteTheirResult : Prop :=
  (∀ (s : State) (c : CoreId) (h : Hdr) (o : SeqOp), Issues s c h → SignalFits s c h →
     NoLoopEnds (coreAt s c) (pcOf s c.die.val c.n.val + 16) →
     (∃ t, exec (.movi c h o) s = .next t
       ∧ Executed s t c h (pcOf s c.die.val c.n.val + 16) { coreAt s c with x := (coreAt t c).x }
       ∧ ScalarsAfter s t c o.xd o.imm)
     ∧ (o.func.toNat % 16 ≤ 10 → ∃ t v, exec (.alu c h o) s = .next t
       ∧ Executed s t c h (pcOf s c.die.val c.n.val + 16) { coreAt s c with x := (coreAt t c).x }
       ∧ ScalarsAfter s t c o.xd v
       ∧ AluSays (o.func.toNat % 16) (xget (coreAt s c) o.xa)
           (if o.func.getLsbD 6 then o.imm else xget (coreAt s c) o.xb) v)
     ∧ ∃ t v, exec (.srd c h o) s = .next t
       ∧ Executed s t c h (pcOf s c.die.val c.n.val + 16) { coreAt s c with x := (coreAt t c).x }
       ∧ ScalarsAfter s t c o.xd v
       ∧ (match windowReg c.die.val c.n.val (o.imm.toNat % 4096) with
         | some a => if h.wen = true ∧ a = slotOf c + 8 * h.wsem.toNat + SEM_VALUE.off then
             fget v SEM_VALUE = semTaken s c h h.wsem.toNat else v = regRead s a
         | none => v = 0))
  ∧ (∀ (s : State) (c : CoreId) (h : Hdr) (o : SeqOp), Issues s c h → SignalFits s c h →
       NoLoopEnds (coreAt s c) (pcOf s c.die.val c.n.val + 16) →
       (o.func.toNat ≤ 9 → ∃ t v, exec (.dset c h o) s = .next t
         ∧ Executed s t c h (pcOf s c.die.val c.n.val + 16) { coreAt s c with a := (coreAt t c).a }
         ∧ DescsAfter s t c o.ad v
         ∧ descWord v o.func.toNat = (xget (coreAt s c) o.xb).toNat % 2 ^ descWidth o.func.toNat
         ∧ ∀ f ≤ 9, f ≠ o.func.toNat → descWord v f = descWord (aget (coreAt s c) o.ad) f)
       ∧ (∀ v, DadvSays (aget (coreAt s c) o.ad) (sext 32 o.imm.toNat) (sext 32 (o.imm.toNat / 2 ^ 32)) v →
         ∃ t, exec (.dadv c h o) s = .next t
           ∧ Executed s t c h (pcOf s c.die.val c.n.val + 16) { coreAt s c with a := (coreAt t c).a }
           ∧ DescsAfter s t c o.ad v))
  ∧ (∀ (s : State) (c : CoreId) (h : Hdr) (o : SeqOp), Issues s c h → SignalFits s c h →
       NoLoopEnds (coreAt s c) (pcOf s c.die.val c.n.val + 16) →
       (∀ p ∈ [(0x38, 32), (0x40, 1), (0x48, 32), (0x50, 64)], o.imm.toNat % 4096 / 8 * 8 = p.1 →
         ∃ t, exec (.swr c h o) s = .next t
           ∧ Ran s t c (pcOf s c.die.val c.n.val + 16) (coreAt s c) (semAfter s c h)
               (fun a => IssueRegs c h a ∨ a = slotOf c + p.1)
           ∧ (regWord t (slotOf c + p.1)).toNat % 2 ^ p.2 = (xget (coreAt s c) o.xb).toNat % 2 ^ p.2)
       ∧ (0xE00 ≤ o.imm.toNat % 4096 →
         ∃ t, exec (.swr c h o) s = .next t
           ∧ Executed s t c h (pcOf s c.die.val c.n.val + 16) (coreAt s c)))

/-- LDX and DLD at issue hold issue until their data returns; LOAD_DATA_RETURN then brings what memory at XA + IMM holds (R78).
STX and DST store at XA + IMM on the module and go on; the store is owed its acknowledgement, with which SEN signals (R66,
R78, R190). -/
def Obligations.LoadsAndStoresReachMemory : Prop :=
  (∀ (s : State) (c : CoreId) (h : Hdr) (o : SeqOp) (e l : Nat),
     (Issues s c h →
       (checkTarget s c.die.val (c.n.val / 16) (some c.n.val) false (xaImm s c.die.val c.n.val o) 8 = .here e l →
         (xaImm s c.die.val c.n.val o).toNat % 8 = 0 → Awake s c.die.val e →
         ∃ t, exec (.ldx c h o) s = .next t ∧ Holds s t c h (.ldx c h o) .load)
       ∧ (checkTarget s c.die.val (c.n.val / 16) (some c.n.val) false (xaImm s c.die.val c.n.val o) 64 = .here e l →
         (xaImm s c.die.val c.n.val o).toNat % 64 = 0 → Awake s c.die.val e →
         ∃ t, exec (.dld c h o) s = .next t ∧ Holds s t c h (.dld c h o) .load))
     ∧ (dieOk s c.die.val = true → coresClocked s c.die.val = true → (coreAt s c).upsets = [] → (coreAt s c).loadTag = none →
       e = addrDie (xaImm s c.die.val c.n.val o) → l = addrLocal (xaImm s c.die.val c.n.val o) →
       routeDown s c.die.val e = false → ¬ isRegister l → Awake s c.die.val e →
       (h.sen = true → semVal s c.die.val c.n.val h.ssem.toNat < 65535) →
       pcOf s c.die.val c.n.val < 0x180000 → NoLoopEnds (coreAt s c) (pcOf s c.die.val c.n.val + 16) →
       ((coreAt s c).hold = some ⟨.load, .ldx c h o⟩ → memSound s e l 8 = true →
         ∃ t, exec (.loadDataReturn c .clean) s = .next t
           ∧ Ran s t c (pcOf s c.die.val c.n.val + 16) { coreAt s c with hold := none, x := (coreAt t c).x } (semSent s c h)
               (fun a => ReleaseRegs c h a ∨ TrafficReg a)
           ∧ ScalarsAfter s t c o.xd (peekWord s e l))
       ∧ ((coreAt s c).hold = some ⟨.load, .dld c h o⟩ → memSound s e l 64 = true →
         ∃ t, exec (.loadDataReturn c .clean) s = .next t
           ∧ Ran s t c (pcOf s c.die.val c.n.val + 16) { coreAt s c with hold := none, a := (coreAt t c).a } (semSent s c h)
               (fun a => ReleaseRegs c h a ∨ TrafficReg a)
           ∧ DescsAfter s t c o.ad (descOf (peek s e l 64)))))
  ∧ (∀ (s : State) (c : CoreId) (h : Hdr) (o : SeqOp) (e l : Nat) (i : Instr) (bs : List Byte),
       Issues s c h → EnginesIdle (coreAt s c) → NoLoopEnds (coreAt s c) (pcOf s c.die.val c.n.val + 16) →
       ((i = .stx c h o ∧ bs = wordBytes (xget (coreAt s c) o.xb))
         ∨ (i = .dst c h o ∧ bs = descBytes (aget (coreAt s c) o.ad))) →
       checkTarget s c.die.val (c.n.val / 16) (some c.n.val) true (xaImm s c.die.val c.n.val o) bs.length = .here e l →
       (xaImm s c.die.val c.n.val o).toNat % bs.length = 0 → routeDown s c.die.val e = false → ¬ isRegister l →
       deadIn s e l bs.length = none → Awake s c.die.val e →
       ∃ t, exec i s = .next t
         ∧ peek t e l bs.length = bs ∧ MemoryBut s t (memAt e l) bs.length
         ∧ pcOf t c.die.val c.n.val = pcOf s c.die.val c.n.val + 16
         ∧ (∀ q < 64, semVal t c.die.val c.n.val q = semTaken s c h q)
         ∧ coreAt t c = { coreAt s c with
             stores := (coreAt s c).stores
               ++ [⟨h.sen, h.ssem, pcOf s c.die.val c.n.val, true, 0, xaImm s c.die.val c.n.val o⟩]
             ibuf := (coreAt t c).ibuf }
         ∧ (∀ (f : Die) (m : Fin 256), (⟨f, m⟩ : CoreId) ≠ c →
             getCore t f.val m.val = { getCore s f.val m.val with ibuf := (getCore t f.val m.val).ibuf })
         ∧ (∀ a, ¬ IssueRegs c h a → ¬ TrafficReg a → regWord t a = regWord s a)
         ∧ t = { s with regs := t.regs, cores := t.cores, mem := t.mem, poison := t.poison, upsets := t.upsets })

/-! CT. -/

/-- NOP, BR, CALL and RET move the program counter, and CALL and RET the return stack, and nothing else (R76, R79). LOOP enters
its body or skips it, the body's end returns to its start or leaves, BRK leaves at once; the index register counts as R75
says. -/
def Obligations.BranchesAndLoopsMoveTheProgramCounter : Prop :=
  (∀ (s : State) (c : CoreId) (h : Hdr) (o : SeqOp) (p : Nat), Issues s c h → SignalFits s c h →
     (p = pcOf s c.die.val c.n.val + 16 → NoLoopEnds (coreAt s c) p →
       (∃ t, exec (.nop c h o) s = .next t ∧ Executed s t c h p (coreAt s c))
       ∧ (o.func.toNat % 8 ≤ 6 → ¬ BranchTaken (o.func.toNat % 8) (xget (coreAt s c) o.xa) (xget (coreAt s c) o.xb) →
         ∃ t, exec (.br c h o) s = .next t ∧ Executed s t c h p (coreAt s c)))
     ∧ ((p : Int) = pcOf s c.die.val c.n.val + 16 * sext 24 o.imm.toNat → p < 0x180000 →
       (o.func.toNat % 8 ≤ 6 → BranchTaken (o.func.toNat % 8) (xget (coreAt s c) o.xa) (xget (coreAt s c) o.xb) →
         (∀ f ∈ (coreAt s c).loops.head?, f.depth = (coreAt s c).rets.length → f.start ≤ p ∧ p < f.stop) →
         ∃ t, exec (.br c h o) s = .next t ∧ Executed s t c h p (coreAt s c))
       ∧ ((coreAt s c).rets.length < 8 →
         NoLoopEnds { coreAt s c with rets := (pcOf s c.die.val c.n.val + 16) :: (coreAt s c).rets } p →
         ∃ t, exec (.call c h o) s = .next t
           ∧ Executed s t c h p
               { coreAt s c with rets := (pcOf s c.die.val c.n.val + 16) :: (coreAt s c).rets }))
     ∧ (∀ rest, (coreAt s c).rets = p :: rest → p % 16 = 0 → p < 0x200000 →
       (∀ f ∈ (coreAt s c).loops.head?, f.depth ≠ (coreAt s c).rets.length) →
       NoLoopEnds { coreAt s c with rets := rest } p →
       ∃ t, exec (.ret c h o) s = .next t ∧ Executed s t c h p { coreAt s c with rets := rest }))
  ∧ (∀ (s : State) (c : CoreId) (h : Hdr) (o : SeqOp) (n : Nat), Issues s c h → SignalFits s c h →
       n = o.imm.toNat / 2 ^ 32 % 2 ^ 16 → ∀ count, count = (if o.func.getLsbD 0 then (xget (coreAt s c) o.xa).toNat % 2 ^ 32
         else o.imm.toNat % 2 ^ 32) →
       (n ≠ 0 → (coreAt s c).loops.length < 4 → count ≠ 0 →
         ∃ t, exec (.loop c h o) s = .next t
           ∧ Executed s t c h (pcOf s c.die.val c.n.val + 16) { coreAt s c with
               x := (coreAt t c).x
               loops := ⟨pcOf s c.die.val c.n.val + 16, pcOf s c.die.val c.n.val + 16 + 16 * n, count, 0, o.xd,
                 (coreAt s c).rets.length⟩ :: (coreAt s c).loops }
           ∧ ScalarsAfter s t c o.xd 0)
       ∧ (n ≠ 0 → (coreAt s c).loops.length < 4 → count = 0 →
         pcOf s c.die.val c.n.val + 16 + 16 * n < 0x200000 →
         NoLoopEnds (coreAt s c) (pcOf s c.die.val c.n.val + 16 + 16 * n) →
         ∃ t, exec (.loop c h o) s = .next t
           ∧ Executed s t c h (pcOf s c.die.val c.n.val + 16 + 16 * n) { coreAt s c with x := (coreAt t c).x }
           ∧ ScalarsAfter s t c o.xd 0)
       ∧ (∀ f rest, (coreAt s c).loops = f :: rest → (coreAt s c).rets.length ≤ f.depth → f.stop % 16 = 0 →
         f.stop < 0x200000 → NoLoopEnds { coreAt s c with loops := rest } f.stop →
         ∃ t, exec (.brk c h o) s = .next t
           ∧ Executed s t c h f.stop { coreAt s c with x := (coreAt t c).x, loops := rest }
           ∧ ScalarsAfter s t c f.xd (BitVec.ofNat 64 f.iter))
       ∧ (∀ f rest, (coreAt s c).loops = f :: rest → (coreAt s c).rets.length = f.depth →
         f.stop = pcOf s c.die.val c.n.val + 16 →
         (f.iter + 1 < f.count → f.start % 16 = 0 → f.start < 0x200000 →
           ∃ t, exec (.nop c h o) s = .next t
             ∧ Executed s t c h f.start { coreAt s c with
                 x := (coreAt t c).x, loops := { f with iter := f.iter + 1 } :: rest }
             ∧ ScalarsAfter s t c f.xd (xget (coreAt s c) f.xd + 1))
         ∧ (f.count ≤ f.iter + 1 → NoLoopEnds { coreAt s c with loops := rest } f.stop →
           ∃ t, exec (.nop c h o) s = .next t
             ∧ Executed s t c h f.stop { coreAt s c with x := (coreAt t c).x, loops := rest }
             ∧ ScalarsAfter s t c f.xd (BitVec.ofNat 64 f.count))))

/-! SY. -/

/-- SSIG adds its count and SWAIT takes its count; SEM_WRITE replaces a value and is no signal (R71, R80). SWAIT whose count is
not there holds issue. A signal that would take a semaphore above 65,535 leaves it there and raises the semaphore-overflow
fault (R71, R90). RSIG signals a semaphore of another core of the die, or of its own, once everything it wrote is visible
(R80, R191), and is held until then, when nothing else happens. -/
def Obligations.SemaphoresCountSignalAndOverflow : Prop :=
  ((∀ (s : State) (c : CoreId) (h : Hdr) (o : SeqOp) (q k : Nat), Issues s c h →
     q = o.imm.toNat % 64 → k = o.imm.toNat / 2 ^ 16 % 2 ^ 16 → k ≠ 0 →
     NoLoopEnds (coreAt s c) (pcOf s c.die.val c.n.val + 16) →
     ((∀ r < 64, semAfter s c h r + (if r = q then k else 0) ≤ 65535) →
       ∃ t, exec (.ssig c h o) s = .next t
         ∧ Ran s t c (pcOf s c.die.val c.n.val + 16) (coreAt s c) (fun r => semAfter s c h r + (if r = q then k else 0))
             (fun a => IssueRegs c h a ∨ a = slotOf c + 8 * q + SEM_VALUE.off))
     ∧ (k ≤ semTaken s c h q → (∀ r < 64, semAfter s c h r - (if r = q then k else 0) ≤ 65535) →
       ∃ t, exec (.swait c h o) s = .next t
         ∧ Ran s t c (pcOf s c.die.val c.n.val + 16) (coreAt s c) (fun r => semAfter s c h r - (if r = q then k else 0))
             (fun a => IssueRegs c h a ∨ a = slotOf c + 8 * q + SEM_VALUE.off))
     ∧ (semTaken s c h q < k → ∃ t, exec (.swait c h o) s = .next t
         ∧ coreAt t c = { coreAt s c with hold := some ⟨.sem, .swait c h o⟩, ibuf := (coreAt t c).ibuf }
         ∧ OtherCores s t c ∧ t = { s with cores := t.cores }))
   ∧ ∀ (s : State) (c : CoreId) (k : BitVec 6) (v : Word), dieOk s c.die.val = true → coresClocked s c.die.val = true →
     ∃ t, exec (.semWrite c k v) s = .next t
       ∧ semVal t c.die.val c.n.val k.toNat = v.toNat % 65536
       ∧ (∀ a, a ≠ slotOf c + 8 * k.toNat + SEM_VALUE.off → regWord t a = regWord s a)
       ∧ coreAt t c = { coreAt s c with upsets := (coreAt t c).upsets } ∧ OtherCores s t c
       ∧ t = { s with regs := t.regs, cores := t.cores })
  ∧ (∀ (s : State) (c : CoreId) (h : Hdr) (o : SeqOp) (q k : Nat), Issues s c h → h.sen = false →
       q = o.imm.toNat % 64 → k = o.imm.toNat / 2 ^ 16 % 2 ^ 16 → 65535 < semTaken s c h q + k →
       NoLoopEnds (coreAt s c) (pcOf s c.die.val c.n.val + 16) →
       ∃ t, exec (.ssig c h o) s = .next t
         ∧ semVal t c.die.val c.n.val q = 65535
         ∧ coreState t c.die.val c.n.val = stFAULTED
         ∧ regWord t (slotOf c + 0x20) = 0x06
         ∧ regWord t (slotOf c + 0x28) = slotAddr s c.die.val c.n.val (pcOf s c.die.val c.n.val)
         ∧ regWord t (slotOf c + 0x30) = 0)
  ∧ (∀ (s : State) (c e : CoreId) (h : Hdr) (o : SeqOp) (q k : Nat), Issues s c h → SignalFits s c h →
       e.die = c.die → e.n.val = (xget (coreAt s c) o.xa).toNat % 256 → q = o.imm.toNat % 64 →
       k = o.imm.toNat / 2 ^ 16 % 2 ^ 16 → noLmod s c.die.val = false →
       fencePermits s c.die.val (lmod s c.die.val) c.die.val = true →
       NoLoopEnds (coreAt s c) (pcOf s c.die.val c.n.val + 16) →
       (visible (coreAt s c) = true →
         (e ≠ c → (coreAt s e).upsets = [] → semVal s e.die.val e.n.val q + k ≤ 65535 →
           ∃ t, exec (.rsig c h o) s = .next t
             ∧ Ran s t c (pcOf s c.die.val c.n.val + 16) (coreAt s c) (semAfter s c h)
                 (fun a => IssueRegs c h a ∨ a = slotOf e + 8 * q + SEM_VALUE.off)
             ∧ semVal t e.die.val e.n.val q = semVal s e.die.val e.n.val q + k)
         ∧ (e = c → (∀ r < 64, semAfter s c h r + (if r = q then k else 0) ≤ 65535) →
           ∃ t, exec (.rsig c h o) s = .next t
             ∧ Ran s t c (pcOf s c.die.val c.n.val + 16) (coreAt s c) (fun r => semAfter s c h r + (if r = q then k else 0))
                 (fun a => IssueRegs c h a ∨ a = slotOf c + 8 * q + SEM_VALUE.off)))
       ∧ (visible (coreAt s c) = false →
         ∃ t, exec (.rsig c h o) s = .next t
           ∧ coreAt t c = { coreAt s c with hold := some ⟨.fence, .rsig c h o⟩, ibuf := (coreAt t c).ibuf }
           ∧ OtherCores s t c ∧ t = { s with cores := t.cores }))

/-- FENCE goes on once every write of an instruction issued before it is visible, and holds issue until then (R73). -/
def Obligations.FenceWaitsForEveryWrite : Prop :=
  ∀ (s : State) (c : CoreId) (h : Hdr) (o : SeqOp), Issues s c h → SignalFits s c h →
    NoLoopEnds (coreAt s c) (pcOf s c.die.val c.n.val + 16) →
    (visible (coreAt s c) = true →
      ∃ t, exec (.fence c h o) s = .next t ∧ Executed s t c h (pcOf s c.die.val c.n.val + 16) (coreAt s c))
    ∧ (visible (coreAt s c) = false →
      ∃ t, exec (.fence c h o) s = .next t
        ∧ coreAt t c = { coreAt s c with hold := some ⟨.fence, .fence c h o⟩, ibuf := (coreAt t c).ibuf }
        ∧ OtherCores s t c ∧ t = { s with cores := t.cores })

/-- A participant that executes BAR once everything it wrote is visible arrives and holds issue; BARRIER_RELEASE releases every
core that arrived once all participants have, and does nothing before (R74). -/
def Obligations.BarriersReleaseTogether : Prop :=
  (∀ (s : State) (c : CoreId) (h : Hdr) (o : SeqOp) (b : Nat), Issues s c h →
    b = (if o.func.getLsbD 0 then o.imm.toNat % 4 else o.imm.toNat % 8) →
    barMember s c.die.val c.n.val (o.func.getLsbD 0) b = true → visible (coreAt s c) = true →
    ∃ t, exec (.bar c h o) s = .next t ∧ Holds s t c h (.bar c h o) .barrier
      ∧ (∀ k, tget [] (getDie t c.die.val).arrived k
          = if k = barKey (o.func.getLsbD 0) (c.n.val / 16) b then tget [] (getDie s c.die.val).arrived k ++ [c.n]
            else tget [] (getDie s c.die.val).arrived k)
      ∧ t = { s with regs := t.regs, cores := t.cores, dies := t.dies })
  ∧ ∀ (s : State) (d : Die) (cl : Option Cl) (b : Fin 8) (key : Nat), dieOk s d.val = true →
    key = barKey cl.isNone (match cl with | some c => c.val | none => 0) b.val →
    ((∃ n ∈ barMembers s d.val cl b.val, ∀ x ∈ tget [] (getDie s d.val).arrived key, x.val ≠ n) →
      exec (.barrierRelease d cl b) s = .next s)
    ∧ ((∀ n ∈ barMembers s d.val cl b.val, ∃ x ∈ tget [] (getDie s d.val).arrived key, x.val = n) →
      tget [] (getDie s d.val).arrived key ≠ [] → (tget [] (getDie s d.val).arrived key).Nodup →
      coresClocked s d.val = true →
      (∀ x ∈ tget [] (getDie s d.val).arrived key, ∃ h o, (getCore s d.val x.val).hold = some ⟨.barrier, .bar ⟨d, x⟩ h o⟩
        ∧ (h.sen = true → semVal s d.val x.val h.ssem.toNat < 65535) ∧ pcOf s d.val x.val < 0x180000
        ∧ (getCore s d.val x.val).upsets = []
        ∧ NoLoopEnds (getCore s d.val x.val) (pcOf s d.val x.val + 16)) →
      ∃ t, exec (.barrierRelease d cl b) s = .next t
        ∧ tget [] (getDie t d.val).arrived key = []
        ∧ (∀ x ∈ tget [] (getDie s d.val).arrived key,
          getCore t d.val x.val = { getCore s d.val x.val with hold := none }
          ∧ pcOf t d.val x.val = pcOf s d.val x.val + 16
          ∧ ∀ h o, (getCore s d.val x.val).hold = some ⟨.barrier, .bar ⟨d, x⟩ h o⟩ →
            ∀ q < 64, semVal t d.val x.val q = semSent s ⟨d, x⟩ h q)
        ∧ (∀ (e : Die) (m : Fin 256), (e = d → m ∉ tget [] (getDie s d.val).arrived key) →
          getCore t e.val m.val = getCore s e.val m.val ∧ pcOf t e.val m.val = pcOf s e.val m.val)
        ∧ t = { s with regs := t.regs, cores := t.cores, dies := t.dies })

/-! PW, HALT, and the states of a core. -/

/-- WAIT completes at once where a wake condition holds, and otherwise waits, in HOLD where MODE is 1 and everything is complete;
CORE_WAKE and CORE_WTIME_EXPIRY end it (R87). -/
def Obligations.WaitEndsAtAWakeCondition : Prop :=
  ∀ (s : State) (c : CoreId) (h : Hdr) (o : SeqOp),
    (Issues s c h →
      ((∃ k < 64, o.imm.getLsbD k = true ∧ semTaken s c h k ≠ 0)
          ∨ (o.func.getLsbD 0 = true ∧ rf s (slotOf c) CORE_WTIME_WTIME = 0) →
        SignalFits s c h → NoLoopEnds (coreAt s c) (pcOf s c.die.val c.n.val + 16) →
        ∃ t, exec (.wait c h o) s = .next t ∧ Executed s t c h (pcOf s c.die.val c.n.val + 16) (coreAt s c))
      ∧ ((∀ k < 64, o.imm.getLsbD k = true → semTaken s c h k = 0) →
        (o.func.getLsbD 0 = true → rf s (slotOf c) CORE_WTIME_WTIME ≠ 0) →
        ∃ t, exec (.wait c h o) s = .next t
          ∧ coreAt t c = { coreAt s c with hold := some ⟨.wait, .wait c h o⟩, ibuf := (coreAt t c).ibuf }
          ∧ coreState t c.die.val c.n.val
            = (if rf s (slotOf c) CORE_PWR_MODE = 1 ∧ drained (coreAt s c) = true then stHOLD else stWAIT)
          ∧ pcOf t c.die.val c.n.val = pcOf s c.die.val c.n.val
          ∧ (∀ q < 64, semVal t c.die.val c.n.val q = semTaken s c h q) ∧ OtherCores s t c
          ∧ (∀ a, ¬ IssueRegs c h a → a ≠ slotOf c + CORE_STATUS_STATE.off → regWord t a = regWord s a)
          ∧ t = { s with regs := t.regs, cores := t.cores }))
    ∧ (dieOk s c.die.val = true → coresClocked s c.die.val = true → (coreAt s c).upsets = [] →
      (coreAt s c).hold = some ⟨.wait, .wait c h o⟩ → pcOf s c.die.val c.n.val < 0x180000 →
      (h.sen = true → semVal s c.die.val c.n.val h.ssem.toNat < 65535) →
      NoLoopEnds (coreAt s c) (pcOf s c.die.val c.n.val + 16) →
      (∀ request, (request = true ∨ wakeTrue s c.die.val c.n.val o = true →
          ∃ t, exec (.coreWake c request) s = .next t
            ∧ Ran s t c (pcOf s c.die.val c.n.val + 16) { coreAt s c with hold := none } (semSent s c h)
                (fun a => ReleaseRegs c h a ∨ a = slotOf c + CORE_STATUS_STATE.off)
            ∧ coreState t c.die.val c.n.val = stRUN)
        ∧ (request = false → wakeTrue s c.die.val c.n.val o = false → exec (.coreWake c request) s = .next s))
      ∧ (o.func.getLsbD 0 = true → ∃ t, exec (.coreWtimeExpiry c) s = .next t
          ∧ Ran s t c (pcOf s c.die.val c.n.val + 16) { coreAt s c with hold := none } (semSent s c h)
              (fun a => ReleaseRegs c h a ∨ a = slotOf c + CORE_STATUS_STATE.off ∨ a = slotOf c + CORE_WTIME_WTIME.off)
          ∧ coreState t c.die.val c.n.val = stRUN ∧ rf t (slotOf c) CORE_WTIME_WTIME = 0)
      ∧ (o.func.getLsbD 0 = false → exec (.coreWtimeExpiry c) s = .next s))

/-- HALT stops issue; the core enters DONE once every engine queue is empty and everything has completed, and not before (R77).
The watchdog raises its fault in RUN and in WAIT with clocks running, where LIMIT is not 0, and nothing otherwise (R91);
CORE_FPC is open there (log 2). -/
def Obligations.HaltEndsInDoneAndWatchdogFaults : Prop :=
  (∀ (s : State) (c : CoreId) (h : Hdr) (o : SeqOp),
     (Issues s c h → SignalFits s c h →
       ∃ t, exec (.halt c h o) s = .next t
         ∧ Ran s t c (pcOf s c.die.val c.n.val) { coreAt s c with hold := some ⟨.halt, .halt c h o⟩ } (semAfter s c h)
             (IssueRegs c h))
     ∧ (dieOk s c.die.val = true → coresClocked s c.die.val = true →
       (coreAt s c).hold = some ⟨.halt, .halt c h o⟩ → pcOf s c.die.val c.n.val < 0x180000 →
       NoLoopEnds (coreAt s c) (pcOf s c.die.val c.n.val + 16) →
       ((drained (coreAt s c) = true → ∃ t, exec (.coreDone c) s = .next t
           ∧ Ran s t c (pcOf s c.die.val c.n.val + 16) { coreAt s c with hold := none } (semVal s c.die.val c.n.val)
               (fun a => a = slotOf c + CORE_PC_PC.off ∨ a = slotOf c + CORE_STATUS_STATE.off)
           ∧ coreState t c.die.val c.n.val = stDONE)
         ∧ (drained (coreAt s c) = false → exec (.coreDone c) s = .next s))))
  ∧ (∀ (s : State) (c : CoreId), dieOk s c.die.val = true → coresClocked s c.die.val = true →
       (rf s (slotOf c) CORE_WDOG_LIMIT ≠ 0 →
         (coreState s c.die.val c.n.val = stRUN
           ∨ (coreState s c.die.val c.n.val = stWAIT ∧ rf s (slotOf c) CORE_PWR_MODE = 0)) →
         ∃ t w, exec (.watchdog c) s = .next t ∧ FaultRecorded s t c 0 0x0A w 0)
       ∧ ((rf s (slotOf c) CORE_WDOG_LIMIT = 0
           ∨ (coreState s c.die.val c.n.val ≠ stRUN ∧ coreState s c.die.val c.n.val ≠ stWAIT)
           ∨ (coreState s c.die.val c.n.val = stWAIT ∧ rf s (slotOf c) CORE_PWR_MODE = 1)) →
         exec (.watchdog c) s = .next s))

/-- The triggers of CORE_CTRL: CLRCNT clears the counters at 0x400-0x428, RESET resets the core (R96), RUN starts issue at CORE_PC
in IDLE or DONE and is ignored in other states, and both together reset the core and then start it (R94). Every CLRCNT command
sets the counters of its block to 0 and changes nothing else. -/
def Obligations.TriggersStartResetAndClear : Prop :=
  (∀ (s : State) (c : CoreId), dieOk s c.die.val = true → coresClocked s c.die.val = true →
     (∃ t, exec (.coreClrcnt c) s = .next t
       ∧ (∀ i < 6, regWord t (slotOf c + 0x400 + 8 * i) = 0)
       ∧ (∀ a, ¬ (slotOf c + 0x400 ≤ a ∧ a ≤ slotOf c + 0x428) → regWord t a = regWord s a)
       ∧ t = { s with regs := t.regs })
     ∧ ((coreState s c.die.val c.n.val = stIDLE ∨ coreState s c.die.val c.n.val = stDONE) →
       ∃ t, exec (.coreRun c) s = .next t
         ∧ Ran s t c (pcOf s c.die.val c.n.val) { coreAt s c with hold := none, acct := 0, reason := 0 }
             (semVal s c.die.val c.n.val) (fun a => a = slotOf c + CORE_STATUS_STATE.off)
         ∧ coreState t c.die.val c.n.val = stRUN)
     ∧ (coreState s c.die.val c.n.val ≠ stIDLE → coreState s c.die.val c.n.val ≠ stDONE →
       exec (.coreRun c) s = .next s)
     ∧ ∀ run, ∃ t, exec (.coreReset c run) s = .next t ∧ CoreIsReset s t c
       ∧ (coreOutstanding s c.die.val c.n.val = [] →
         coreState t c.die.val c.n.val = if run = true then stRUN else stIDLE)
       ∧ (coreOutstanding s c.die.val c.n.val ≠ [] → (coreAt t c).startAfter = run))
  ∧ (∀ (i : Instr) (s : State) (d : Die), counterSpans i ≠ [] → dieOf i = some d → dieOk s d.val = true →
       (∀ p ∈ counterSpans i, unitGated s p.1 = false) →
       ((∀ c, i = .gcClrcnt c → hasGc s = true) → (i = .pluClrcnt d → hasPlu s d.val = true) →
         ∃ t, exec i s = .next t
           ∧ (∀ a, a % 8 = 0 → (∃ p ∈ counterSpans i, p.1 ≤ a ∧ a ≤ p.2) → regWord t a = 0)
           ∧ (∀ a, (∀ p ∈ counterSpans i, ¬ (p.1 ≤ a ∧ a ≤ p.2)) → regWord t a = regWord s a)
           ∧ t = { s with regs := t.regs }))

/-- HEAD and TAIL of a stash conveyor move, and USED and HWM follow; a write that would take USED above 2^23 changes neither and
sets OVER (R273, R277). SC_EVENT counts a spilled entry with code 1 and a recomputed one with code 2, and nothing with another
(R277). -/
def Obligations.StashPointersMoveAndEventsCount : Prop :=
  (∀ (s : State) (c : ClId) (v : Word), dieOk s c.die.val = true → coresClocked s c.die.val = true →
     ∀ p ∈ [(Instr.scHeadWrite c v, v.toNat % 2 ^ 24, rf s (clBlk c.die.val c.cl.val) SC_TAIL_TAIL),
         (Instr.scTailWrite c v, rf s (clBlk c.die.val c.cl.val) SC_HEAD_HEAD, v.toNat % 2 ^ 24)],
       let used := (p.2.2 + 2 ^ 24 - p.2.1) % 2 ^ 24
       let b := clBlk c.die.val c.cl.val
       ∃ t, exec p.1 s = .next t
         ∧ (used ≤ 2 ^ 23 → rf t b SC_HEAD_HEAD = p.2.1 ∧ rf t b SC_TAIL_TAIL = p.2.2 ∧ rf t b SC_STATUS_USED = used
           ∧ rf t b SC_HWM_HWM = max (rf s b SC_HWM_HWM) used ∧ rf t b SC_STATUS_OVER = rf s b SC_STATUS_OVER)
         ∧ (2 ^ 23 < used → rf t b SC_STATUS_OVER = 1 ∧ rf t b SC_HEAD_HEAD = rf s b SC_HEAD_HEAD
           ∧ rf t b SC_TAIL_TAIL = rf s b SC_TAIL_TAIL ∧ rf t b SC_STATUS_USED = rf s b SC_STATUS_USED
           ∧ rf t b SC_HWM_HWM = rf s b SC_HWM_HWM)
         ∧ (∀ a, a ∉ [b + SC_HEAD_HEAD.off, b + SC_TAIL_TAIL.off, b + SC_STATUS_USED.off, b + SC_HWM_HWM.off] →
           regWord t a = regWord s a)
         ∧ t = { s with regs := t.regs })
  ∧ (∀ (s : State) (c : ClId) (v : Word) (k : Nat), dieOk s c.die.val = true → coresClocked s c.die.val = true →
       k = fget v SC_EVENT_CODE →
       ∃ t, exec (.scEvent c v) s = .next t
         ∧ (k = 1 → regWord t (clBlk c.die.val c.cl.val + SC_CNT_SPILLENT.off)
             = regWord s (clBlk c.die.val c.cl.val + SC_CNT_SPILLENT.off) + 1)
         ∧ (k = 2 → regWord t (clBlk c.die.val c.cl.val + SC_CNT_RECOMP.off)
             = regWord s (clBlk c.die.val c.cl.val + SC_CNT_RECOMP.off) + 1)
         ∧ (∀ a, ¬ (k = 1 ∧ a = clBlk c.die.val c.cl.val + SC_CNT_SPILLENT.off) →
             ¬ (k = 2 ∧ a = clBlk c.die.val c.cl.val + SC_CNT_RECOMP.off) → regWord t a = regWord s a)
         ∧ t = { s with regs := t.regs })

/-! The step queues (R282-R286). -/

/-- QPOST copies its entry behind the lane's last and advances PUT where there is room, XD reading 1; a full lane takes nothing,
XD reading 0 (R284). DRAW reads the address of the oldest entry, TAKE that of the next free slot, 0 where there is none;
neither moves the queue (R284). RETIRE advances GET and SEND, once everything is visible, PUT; on a stage queue the count goes
to the peer too; XD reads the new count. ACCOUNT sets the account alone (R191, R284, R285). -/
def Obligations.QueueInstructionsPostTakeAndAdvance : Prop :=
  (∀ (s : State) (c : CoreId) (h : Hdr) (o : SeqOp) (l : Nat) (q : QHdr), Issues s c h → SignalFits s c h →
     NoLoopEnds (coreAt s c) (pcOf s c.die.val c.n.val + 16) → HeaderAt s c o [1, 2] l q → o.func.toNat % 4 = 0 →
     outsideSlot s c.die.val c.n.val (xget (coreAt s c) o.xb).toNat 32 = none → (xget (coreAt s c) o.xb).toNat % 32 = 0 →
     ((q.put - q.get).toNat < q.slots → memSound s c.die.val (localOf (xget (coreAt s c) o.xb).toNat) 32 = true →
       ∀ e m, WriteLands s c (q.base + BitVec.ofNat 64 (q.put.toNat % q.slots * 32)) 32 e m →
       ∃ t, exec (.qpost c h o) s = .next t
         ∧ RanStore s t c (pcOf s c.die.val c.n.val + 16) { acctAfter (coreAt s c) o with x := (coreAt t c).x }
             (semAfter s c h) (fun a => IssueRegs c h a ∨ TrafficReg a)
             [(memAt e m, peek s c.die.val (localOf (xget (coreAt s c) o.xb).toNat) 32),
              (memAt c.die.val (l + 8), leBytes 4 (q.put + 1).toNat)]
         ∧ ScalarsAfter s t c o.xd 1)
     ∧ (¬ (q.put - q.get).toNat < q.slots →
       ∃ t, exec (.qpost c h o) s = .next t
         ∧ RanStore s t c (pcOf s c.die.val c.n.val + 16) { acctAfter (coreAt s c) o with x := (coreAt t c).x }
             (semAfter s c h) (fun a => IssueRegs c h a ∨ TrafficReg a) []
         ∧ ScalarsAfter s t c o.xd 0))
  ∧ (∀ (s : State) (c : CoreId) (h : Hdr) (o : SeqOp) (l : Nat) (q : QHdr), Issues s c h → SignalFits s c h →
       NoLoopEnds (coreAt s c) (pcOf s c.die.val c.n.val + 16) → o.func.toNat % 4 = 0 →
       (∀ p ∈ [(Instr.draw c h o, [1, 2, 4]), (Instr.take c h o, [3])], HeaderAt s c o p.2 l q →
         ∃ t, exec p.1 s = .next t
           ∧ RanStore s t c (pcOf s c.die.val c.n.val + 16) { acctAfter (coreAt s c) o with x := (coreAt t c).x }
               (semAfter s c h) (fun a => IssueRegs c h a ∨ TrafficReg a) []
           ∧ ScalarsAfter s t c o.xd
               (if q.kind = 3 then
                 (if (q.put - q.peerCount).toNat < q.slots then
                   q.base + BitVec.ofNat 64 (q.put.toNat % q.slots * q.slotBytes) else 0)
               else if q.kind = 4 then
                 (if q.peerCount = q.get then 0 else q.base + BitVec.ofNat 64 (q.get.toNat % q.slots * q.slotBytes))
               else if q.get = q.put then 0 else q.base + BitVec.ofNat 64 (q.get.toNat % q.slots * 32))))
  ∧ (∀ (s : State) (c : CoreId) (h : Hdr) (o : SeqOp) (l : Nat) (q : QHdr), Issues s c h → SignalFits s c h →
       NoLoopEnds (coreAt s c) (pcOf s c.die.val c.n.val + 16) →
       (o.func.toNat % 4 = 1 → HeaderAt s c o [1, 2, 4] l q → q.kind ≠ 4 →
         ∃ t, exec (.retire c h o) s = .next t
           ∧ RanStore s t c (pcOf s c.die.val c.n.val + 16) { acctAfter (coreAt s c) o with x := (coreAt t c).x }
               (semAfter s c h) (fun a => IssueRegs c h a ∨ TrafficReg a)
               [(memAt c.die.val (l + 12), leBytes 4 (q.get + 1).toNat)]
           ∧ ScalarsAfter s t c o.xd (BitVec.ofNat 64 (q.get + 1).toNat))
       ∧ (o.func.toNat % 4 = 1 → HeaderAt s c o [1, 2, 4] l q → q.kind = 4 → ∀ e m, WriteLands s c q.peer 4 e m →
         ∃ t, exec (.retire c h o) s = .next t
           ∧ RanStore s t c (pcOf s c.die.val c.n.val + 16) { acctAfter (coreAt s c) o with x := (coreAt t c).x }
               (semAfter s c h) (fun a => IssueRegs c h a ∨ TrafficReg a)
               [(memAt c.die.val (l + 12), leBytes 4 (q.get + 1).toNat), (memAt e m, leBytes 4 (q.get + 1).toNat)]
           ∧ ScalarsAfter s t c o.xd (BitVec.ofNat 64 (q.get + 1).toNat))
       ∧ (o.func.toNat % 4 = 1 → HeaderAt s c o [3] l q → visible (coreAt s c) = true → ∀ e m, WriteLands s c q.peer 4 e m →
         ∃ t, exec (.send c h o) s = .next t
           ∧ RanStore s t c (pcOf s c.die.val c.n.val + 16) { acctAfter (coreAt s c) o with x := (coreAt t c).x }
               (semAfter s c h) (fun a => IssueRegs c h a ∨ TrafficReg a)
               [(memAt c.die.val (l + 8), leBytes 4 (q.put + 1).toNat), (memAt e m, leBytes 4 (q.put + 1).toNat)]
           ∧ ScalarsAfter s t c o.xd (BitVec.ofNat 64 (q.put + 1).toNat))
       ∧ (o.func.toNat % 4 = 2 → qEncOk o = true →
         ∃ t, exec (.account c h o) s = .next t
           ∧ Executed s t c h (pcOf s c.die.val c.n.val + 16) (acctAfter (coreAt s c) o)))

/-! Commands to the units of a cluster. -/

/-- DQ and a write to CH_DQ append the descriptor at their address to the channel's queue, and an idle channel starts; a full
queue holds DQ and drops the write, setting DQDROP (R204, R220). CQ and PQ hand the command at their address to the compressor
of the cluster and to the prefix lookup unit of the row, and go on; a full queue holds them, and where the part has no such
unit they raise the unit-absent fault before anything changes (R3, R78, R244, R249, R294). -/
def Obligations.CommandsAreQueuedAtTheirUnits : Prop :=
  ((∀ (s : State) (c : CoreId) (h : Hdr) (o : SeqOp) (k e l : Nat), Issues s c h → SignalFits s c h →
     NoLoopEnds (coreAt s c) (pcOf s c.die.val c.n.val + 16) → k = (xget (coreAt s c) o.xb).toNat % 32 →
     (chanDepth (getChan s c.die.val (c.n.val / 16) k) < 4 → CommandAt s c o none e l →
       ∃ t, exec (.dq c h o) s = .next t
         ∧ pcOf t c.die.val c.n.val = pcOf s c.die.val c.n.val + 16
         ∧ (∀ q < 64, semVal t c.die.val c.n.val q = semAfter s c h q)
         ∧ coreAt t c = { coreAt s c with ibuf := (coreAt t c).ibuf } ∧ OtherCores s t c ∧ SameMemory s t
         ∧ DescriptorQueued s t c.die.val (c.n.val / 16) k
             ⟨leWords (peek s e l 64), dataAddr s c o, none, none, .clean⟩
         ∧ (∀ a, ¬ IssueRegs c h a → ¬ TrafficReg a → a ≠ chBlk c.die.val (c.n.val / 16) k + CH_STATUS_STATE.off →
             regWord t a = regWord s a))
     ∧ (4 ≤ chanDepth (getChan s c.die.val (c.n.val / 16) k) →
       ∃ t, exec (.dq c h o) s = .next t
         ∧ coreAt t c = { coreAt s c with hold := some ⟨.queue, .dq c h o⟩, ibuf := (coreAt t c).ibuf }
         ∧ OtherCores s t c ∧ t = { s with cores := t.cores }))
   ∧ ∀ (s : State) (c : ChId) (a : Word) (e l : Nat), dieOk s c.die.val = true → coresClocked s c.die.val = true →
     (chanDepth (getChan s c.die.val c.cl.val c.ch.val) < 4 →
       checkTarget s c.die.val c.cl.val none false a 64 = .here e l → routeDown s c.die.val e = false →
       memSound s e l 64 = true → Awake s c.die.val e →
       ∃ t, exec (.chDq c a) s = .next t
         ∧ DescriptorQueued s t c.die.val c.cl.val c.ch.val ⟨leWords (peek s e l 64), a, none, none, .clean⟩
         ∧ (∀ r, ¬ TrafficReg r → r ≠ chBlk c.die.val c.cl.val c.ch.val + CH_STATUS_STATE.off → regWord t r = regWord s r)
         ∧ t = { s with regs := t.regs, chans := t.chans })
     ∧ (4 ≤ chanDepth (getChan s c.die.val c.cl.val c.ch.val) →
       ∃ t, exec (.chDq c a) s = .next t
         ∧ rf t (chBlk c.die.val c.cl.val c.ch.val) CH_STATUS_DQDROP = 1
         ∧ (∀ r, r ≠ chBlk c.die.val c.cl.val c.ch.val + CH_STATUS_DQDROP.off → regWord t r = regWord s r)
         ∧ chanState t c.die.val c.cl.val c.ch.val = chanState s c.die.val c.cl.val c.ch.val
         ∧ t = { s with regs := t.regs }))
  ∧ (∀ (s : State) (c : CoreId) (h : Hdr) (o : SeqOp) (e l : Nat), Issues s c h →
       NoLoopEnds (coreAt s c) (pcOf s c.die.val c.n.val + 16) →
       (hasGc s = true → (getGc s c.die.val (c.n.val / 16)).length < 8 → CommandAt s c o (some c.n.val) e l →
         gcDescOk (leWords (peek s e l 64)) = true → EnginesIdle (coreAt s c) →
         ∃ t x, exec (.cq c h o) s = .next t ∧ x.words = leWords (peek s e l 64) ∧ x.n = c.n
           ∧ (∀ f k, k < 16 → getGc t f k = if f = c.die.val ∧ k = c.n.val / 16 then getGc s f k ++ [x] else getGc s f k)
           ∧ coreAt t c = { coreAt s c with
               gcOwed := (coreAt s c).gcOwed ++ [⟨h.sen, h.ssem, pcOf s c.die.val c.n.val, .queued⟩]
               ibuf := (coreAt t c).ibuf }
           ∧ pcOf t c.die.val c.n.val = pcOf s c.die.val c.n.val + 16
           ∧ (∀ q < 64, semVal t c.die.val c.n.val q = semTaken s c h q) ∧ OtherCores s t c ∧ SameMemory s t
           ∧ (∀ a, ¬ IssueRegs c h a → ¬ TrafficReg a → regWord t a = regWord s a))
       ∧ (s.secure.variant.plu = true → (getPlu s (c.die.val / 6 * 6)).queue.length < 32 →
         CommandAt s c o (some c.n.val) e l → routeDown s c.die.val (c.die.val / 6 * 6) = false → EnginesIdle (coreAt s c) →
         ∃ t x, exec (.pq c h o) s = .next t ∧ x.words = leWords (peek s e l 64) ∧ x.die = c.die ∧ x.n = c.n
           ∧ x.dies = regWord s (dieBlk c.die.val + 0x28)
           ∧ x.mods = (List.range 8).map (fun i => regWord s (dieBlk c.die.val + 0x30 + 8 * i))
           ∧ (∀ f, getPlu t f = if f = c.die.val / 6 * 6 then
               { getPlu s f with queue := (getPlu s f).queue ++ [x] } else getPlu s f)
           ∧ coreAt t c = { coreAt s c with
               pluOwed := (coreAt s c).pluOwed ++ [⟨h.sen, h.ssem, pcOf s c.die.val c.n.val, true, 0, 0⟩]
               ibuf := (coreAt t c).ibuf }
           ∧ pcOf t c.die.val c.n.val = pcOf s c.die.val c.n.val + 16
           ∧ (∀ q < 64, semVal t c.die.val c.n.val q = semTaken s c h q) ∧ OtherCores s t c ∧ SameMemory s t
           ∧ (∀ a, ¬ IssueRegs c h a → ¬ TrafficReg a → a ≠ pluBlk (c.die.val / 6 * 6) + PLU_ACCEPTED.off →
               regWord t a = regWord s a))
       ∧ (∀ i, (hasGc s = false ∧ i = .cq c h o) ∨ (s.secure.variant.plu = false ∧ i = .pq c h o) →
         ∃ t, exec i s = .next t
           ∧ FaultRecorded s t c 0 0x02 (slotAddr s c.die.val c.n.val (pcOf s c.die.val c.n.val)) 0)
       ∧ (∀ i, (hasGc s = true ∧ 8 ≤ (getGc s c.die.val (c.n.val / 16)).length ∧ i = .cq c h o)
           ∨ (s.secure.variant.plu = true ∧ 32 ≤ (getPlu s (c.die.val / 6 * 6)).queue.length ∧ i = .pq c h o) →
         ∃ t, exec i s = .next t
           ∧ coreAt t c = { coreAt s c with hold := some ⟨.queue, i⟩, ibuf := (coreAt t c).ibuf }
           ∧ OtherCores s t c ∧ t = { s with cores := t.cores }))

/-! The DMA engine (R203-R222). -/

/-- PAUSE and PAUSEALL: RUN and FETCH pause, PAUSING and PAUSED return to RUN, or to IDLE where nothing is left (R217, R220).
ABORT discards a channel's queue and what has not completed, and the drain leads to IDLE; CLEAR leads STOPPED to IDLE with the
error cleared; a drained channel in STOPPING stops and one in PAUSING is paused (R217, R218, R220). -/
def Obligations.ChannelsPauseAbortAndDrain : Prop :=
  ((∀ (s : State) (c : ChId) (b : Bool), dieOk s c.die.val = true → coresClocked s c.die.val = true →
     NoneToComplete (chanAt s c) →
     ∃ t, exec (.chPause c b) s = .next t
       ∧ chanMode t c = pausedState (b || rfb s (dmaBlk c.die.val c.cl.val) DMA_CTRL_PAUSEALL) (chanQuiet (chanAt s c))
           (chanMode s c)
       ∧ rf t (chanBase c) CH_CTRL_PAUSE = b2n b
       ∧ (∀ a, a ≠ chanBase c + CH_CTRL_PAUSE.off → a ≠ chanBase c + CH_STATUS_STATE.off → regWord t a = regWord s a)
       ∧ t = { s with regs := t.regs })
   ∧ ∀ (s : State) (c : ClId) (b : Bool), dieOk s c.die.val = true → coresClocked s c.die.val = true →
     (∀ k : Fin 32, NoneToComplete (chanAt s ⟨c.die, c.cl, k⟩)) →
     ∃ t, exec (.pauseall c b) s = .next t
       ∧ rf t (dmaBlk c.die.val c.cl.val) DMA_CTRL_PAUSEALL = b2n b
       ∧ (∀ k : Fin 32, chanMode t ⟨c.die, c.cl, k⟩
           = pausedState (rfb s (chanBase ⟨c.die, c.cl, k⟩) CH_CTRL_PAUSE || b) (chanQuiet (chanAt s ⟨c.die, c.cl, k⟩))
               (chanMode s ⟨c.die, c.cl, k⟩))
       ∧ (∀ a, a ≠ dmaBlk c.die.val c.cl.val + DMA_CTRL_PAUSEALL.off →
           (∀ k < 32, a ≠ chBlk c.die.val c.cl.val k + CH_STATUS_STATE.off) → regWord t a = regWord s a)
       ∧ t = { s with regs := t.regs })
  ∧ (∀ (s : State) (c : ChId), dieOk s c.die.val = true → coresClocked s c.die.val = true →
       (chanMode s c = 0 → exec (.chAbort c) s = .next s)
       ∧ (chanMode s c ≠ 0 → chanMode s c ≠ 5 → chanMode s c ≠ 6 → ∃ t, exec (.chAbort c) s = .next t
           ∧ chanAt t c = { chanAt s c with aborting := true, queue := [], head := none, finishing := [] }
           ∧ OtherChannels s t c ∧ t = { s with chans := t.chans })
       ∧ (chanMode s c = 5 → ∃ t, exec (.chAbort c) s = .next t
           ∧ chanAt t c = { chanAt s c with aborting := true } ∧ OtherChannels s t c ∧ t = { s with chans := t.chans })
       ∧ (∀ i ∈ [Instr.chAbort c, Instr.chClear c], chanMode s c = 6 → ∃ t, exec i s = .next t
           ∧ chanMode t c = 0 ∧ rf t (chanBase c) CH_STATUS_ERR = 0 ∧ rf t (chanBase c) CH_ERRADDR = 0
           ∧ chanAt t c = { chanAt s c with queue := [], head := none, fetch := none, finishing := [], aborting := false }
           ∧ OtherChannels s t c
           ∧ (∀ a, a ≠ chanBase c + CH_STATUS_STATE.off → a ≠ chanBase c + CH_ERRADDR.off → regWord t a = regWord s a)
           ∧ t = { s with regs := t.regs, chans := t.chans })
       ∧ (chanMode s c ≠ 6 → exec (.chClear c) s = .next s)
       ∧ (((chanAt s c).bursts ≠ [] ∨ (chanAt s c).fetch ≠ none) → exec (.channelDrainComplete c) s = .next s)
       ∧ ((chanAt s c).bursts = [] → (chanAt s c).fetch = none →
         (chanMode s c = 5 → (chanAt s c).aborting = false → ∃ t, exec (.channelDrainComplete c) s = .next t
           ∧ chanMode t c = 6 ∧ (∀ a, a ≠ chanBase c + CH_STATUS_STATE.off → regWord t a = regWord s a)
           ∧ t = { s with regs := t.regs })
         ∧ (chanMode s c ≠ 5 → (chanAt s c).aborting = true → (chanAt s c).queue = [] →
           ∃ t, exec (.channelDrainComplete c) s = .next t
             ∧ chanMode t c = 0 ∧ (∀ a, a ≠ chanBase c + CH_STATUS_STATE.off → regWord t a = regWord s a)
             ∧ chanAt t c = { chanAt s c with head := none, finishing := [], aborting := false } ∧ OtherChannels s t c
             ∧ t = { s with regs := t.regs, chans := t.chans })
         ∧ (chanMode s c = 3 → (chanAt s c).aborting = false → ∃ t, exec (.channelDrainComplete c) s = .next t
           ∧ chanMode t c = 4 ∧ t = { s with regs := t.regs }
           ∧ (∀ h, (chanAt s c).head = some h → ∀ j < 8, regWord t (chanBase c + 0x28 + 8 * j) = wd h.desc.words j))))

/-- The descriptor at the head of the queue is taken up: one that breaks R207 stops the channel with error 1 and stays in the
queue, one whose read failed stops it with that error, an uncorrectable error of its queue entry with error 5 (R219), one whose
extent passes LIMIT is refused and counted, and a good one becomes the head (R204, R207, R208); one that another module has
not answered is waited for (R174). The arbiters grant one burst, or none where no channel requests (R210). A granted row of
a copy issues its reads at their home; of FILL it writes the pattern; both count, and the head moves past the burst (R206,
R209, R212). -/
def Obligations.DescriptorsAreCheckedAndBurstsGranted : Prop :=
  (∀ (s : State) (c : ChId) (q : QDesc) (rest : List QDesc), dieOk s c.die.val = true → chanMode s c = 1 →
     (chanAt s c).aborting = false → (chanAt s c).head = none → (chanAt s c).fetch = none →
     (chanAt s c).queue = q :: rest → NoneToComplete (chanAt s c) →
     (∀ tag, q.tag = some tag → answersOf s c.die.val (unitDma c.cl.val c.ch.val) tag 1 = none →
       exec (.descriptorHead c) s = .next s)
     ∧ (q.tag = none →
       (q.upset = .uncorrectable → ∃ t, exec (.descriptorHead c) s = .next t ∧ ChannelStops s t c 5 q.addr)
       ∧ (q.upset = .clean →
         (∀ e, q.failed = some e ∨ (q.failed = none ∧ dmaDescOk q.words = false ∧ e = 1) → e.toNat < 16 →
           ∃ t, exec (.descriptorHead c) s = .next t ∧ ChannelStops s t c e.toNat q.addr
             ∧ (chanAt t c).queue = (chanAt s c).queue)
         ∧ (q.failed = none → dmaDescOk q.words = true → dmaRefused q.words = true → (chanAt s c).finishing = [] →
           dWord q.words 30 30 = 0 → ∃ t, exec (.descriptorHead c) s = .next t
             ∧ rf t (chanBase c) CH_STATUS_RFULL = 1
             ∧ regWord t (chanBase c + CH_CNT_RFULL.off) = regWord s (chanBase c + CH_CNT_RFULL.off) + 1
             ∧ (chanAt t c).queue = rest ∧ (chanAt t c).head = none ∧ SameMemory s t ∧ t.cores = s.cores
             ∧ OtherChannels s t c)
         ∧ (q.failed = none → dmaDescOk q.words = true → dmaRefused q.words = false → dOp q.words ≠ 5 →
           ∃ t, exec (.descriptorHead c) s = .next t
             ∧ chanAt t c = { chanAt s c with
                 queue := rest, serial := (chanAt s c).serial + 1
                 head := some ⟨q, false, (chanAt s c).serial, 0, 0, [], 0⟩
                 finishing := (chanAt s c).finishing ++ [⟨(chanAt s c).serial, false, false, q⟩] }
             ∧ OtherChannels s t c ∧ (∀ a, regWord t a = regWord s a)
             ∧ t = { s with regs := t.regs, chans := t.chans }))))
  ∧ (∀ (s : State) (c : ClId), dieOk s c.die.val = true →
       (grantOf s c.die.val c.cl.val = none → exec (.burstGrant c) s = .next s)
       ∧ ∀ (lv : Nat) (k : Fin 32) (h : HeadSt) (src dst : Word) (len : Nat) (ch : ChId), ch = ⟨c.die, c.cl, k⟩ →
         grantOf s c.die.val c.cl.val = some (lv, k.val) →
         requestOf s c.die.val c.cl.val k.val = some (h, .row src dst len) →
         NoneToComplete (chanAt s ch) →
         (dOp h.desc.words ≠ 2 → firstRefused s c.die.val c.cl.val false (reqs src len) = none →
           isAway s c.die.val c.cl.val false src len = false → routeDown s c.die.val (addrDie src) = false →
           (∀ p ∈ reqs src len, memSound s (addrDie src) (addrLocal p.1) p.2 = true) →
           ∃ t, exec (.burstGrant c) s = .next t
             ∧ (chanAt t ch).bursts = (chanAt s ch).bursts
                 ++ [⟨h.serial, 0, false, src, dst, len, h.row, h.off, peek s (addrDie src) (addrLocal src) len, none, false⟩]
             ∧ GrantCounted s t c lv k ∧ SameMemory s t ∧ t.cores = s.cores)
         ∧ (dOp h.desc.words = 2 → firstRefused s c.die.val c.cl.val true (reqs dst len) = none →
           isAway s c.die.val c.cl.val true dst len = false → routeDown s c.die.val (addrDie dst) = false →
           (∀ p ∈ (dst, len) :: reqs dst len, deadIn s (addrDie dst) (addrLocal p.1) p.2 = none) →
           ∃ t, exec (.burstGrant c) s = .next t
             ∧ (chanAt t ch).bursts = (chanAt s ch).bursts
                 ++ [⟨h.serial, 0, false, src, dst, len, h.row, h.off, fillBytes h.desc.words h.off len, none, true⟩]
             ∧ GrantCounted s t c lv k
             ∧ Stored s t [(memAt (addrDie dst) (addrLocal dst), fillBytes h.desc.words h.off len)]))

/-- Reads that return are written at the burst's destination; writes that are acknowledged count their bytes, and with the last of
a descriptor its signal is given and an empty channel is IDLE (R212, R214, R220). A chained descriptor that arrives is taken
up; an aged channel goes to level 3; a timeout stops the channel with error 6 at the oldest request without an answer
(R211, R216, R219). -/
def Obligations.BurstsCompleteChainAgeAndTimeOut : Prop :=
  (∀ (s : State) (c : ChId) (i : Nat) (b : Burst), dieOk s c.die.val = true → b.bad = none →
     isAway s c.die.val c.cl.val true b.dst b.len = false →
     (FirstBurst (chanAt s c) false i b → b.index = false → addrMod b.src = lmod s c.die.val → noLmod s c.die.val = false →
       firstRefused s c.die.val c.cl.val true (reqs b.dst b.len) = none → routeDown s c.die.val (addrDie b.dst) = false →
       (∀ p ∈ (b.dst, b.len) :: reqs b.dst b.len, deadIn s (addrDie b.dst) (addrLocal p.1) p.2 = none) →
       b.got.length = b.len → unserved s c.die.val (addrDie b.src) = false → Awake s c.die.val (addrDie b.dst) →
       ∃ t, exec (.burstReadReturn c .clean) s = .next t
         ∧ Stored s t [(memAt (addrDie b.dst) (addrLocal b.dst), b.got)]
         ∧ chanAt t c = { chanAt s c with bursts := (chanAt s c).bursts.set i { b with writing := true } }
         ∧ OtherChannels s t c ∧ (∀ a, ¬ TrafficReg a → regWord t a = regWord s a)
         ∧ (∀ e : CoreId, coreAt t e = { coreAt s e with ibuf := (coreAt t e).ibuf })
         ∧ t = { s with
             regs := t.regs, chans := t.chans, mem := t.mem, poison := t.poison, upsets := t.upsets, cores := t.cores })
     ∧ (FirstBurst (chanAt s c) true i b → unserved s c.die.val (addrDie b.dst) = false →
       (∀ h, (chanAt s c).head = some h →
         h.row < dRows h.desc.words ∧ (h.off = 0 → h.idx.head? ≠ some (0xFFFFFFFF : BitVec 32))) → NoneToComplete { chanAt s c with bursts := (chanAt s c).bursts.eraseIdx i } →
       (chanAt s c).finishing ≠ [] →
       ∃ t, exec (.writeAck c) s = .next t
         ∧ chanAt t c = { chanAt s c with bursts := (chanAt s c).bursts.eraseIdx i }
         ∧ regWord t (chanBase c + CH_CNT_BYTES.off) = regWord s (chanBase c + CH_CNT_BYTES.off) + BitVec.ofNat 64 b.len
         ∧ (∀ a, a ≠ chanBase c + CH_CNT_BYTES.off → regWord t a = regWord s a)
         ∧ OtherChannels s t c ∧ t = { s with regs := t.regs, chans := t.chans })
     ∧ (∀ f, (chanAt s c).bursts = [b] → b.writing = true → (chanAt s c).finishing = [f] → f.issued = true →
       f.refused = false → (chanAt s c).queue = [] → (chanAt s c).head = none → (chanAt s c).fetch = none →
       chanMode s c = 1 → dKind f.desc.words = 0 → ∀ n sem, n = c.cl.val * 16 + dWord f.desc.words 15 12 →
       sem = dWord f.desc.words 21 16 → semVal s c.die.val n sem < 65535 → (getCore s c.die.val n).upsets = [] →
       unserved s c.die.val (addrDie b.dst) = false →
       ∃ t, exec (.writeAck c) s = .next t
         ∧ chanMode t c = 0 ∧ (chanAt t c).bursts = [] ∧ (chanAt t c).finishing = []
         ∧ semVal t c.die.val n sem = semVal s c.die.val n sem + dWord f.desc.words 10 10
         ∧ SameMemory s t ∧ t.cores = s.cores ∧ OtherChannels s t c))
  ∧ (∀ (s : State) (c : ChId), dieOk s c.die.val = true →
       (∀ b, (chanAt s c).fetch = some b → addrMod b.src = lmod s c.die.val → noLmod s c.die.val = false → b.bad = none →
         unserved s c.die.val (addrDie b.src) = false → chanMode s c = 2 → (chanAt s c).aborting = false → NoneToComplete (chanAt s c) →
         dmaDescOk (leWords b.got) = true → dmaRefused (leWords b.got) = false → dOp (leWords b.got) ≠ 5 →
         ∃ t, exec (.chainedDescriptorArrival c .clean) s = .next t
           ∧ chanMode t c = 1
           ∧ chanAt t c = { chanAt s c with
               fetch := none, serial := (chanAt s c).serial + 1
               head := some ⟨⟨leWords b.got, b.src, none, none, .clean⟩, true, (chanAt s c).serial, 0, 0, [], 0⟩
               finishing := (chanAt s c).finishing
                 ++ [⟨(chanAt s c).serial, false, false, ⟨leWords b.got, b.src, none, none, .clean⟩⟩] }
           ∧ OtherChannels s t c ∧ SameMemory s t ∧ t.cores = s.cores)
       ∧ (rf s (dmaBlk c.die.val c.cl.val) DMA_AGE_CYCLES ≠ 0 →
         (requestOf s c.die.val c.cl.val c.ch.val).isSome = true →
         ∃ t, exec (.dmaAgeExpiry c) s = .next t
           ∧ chanAt t c = { chanAt s c with aged := true }
           ∧ requestLevel t c.die.val c.cl.val c.ch.val = some 3
           ∧ OtherChannels s t c ∧ t = { s with chans := t.chans })
       ∧ (rf s (dmaBlk c.die.val c.cl.val) DMA_TIMEOUT_US ≠ 0 → chanMode s c ≠ 5 → chanMode s c ≠ 6 →
         ∀ b x, ((chanAt s c).bursts ++ (chanAt s c).fetch.toList).findSome?
             (unanswered s c.die.val c.cl.val c.ch.val) = some (b, x) →
         ∃ t, exec (.dmaTimeout c) s = .next t
           ∧ ChannelStops s t c 6 x
           ∧ (chanAt t c).bursts = [] ∧ (chanAt t c).fetch = none)
       ∧ (rf s (dmaBlk c.die.val c.cl.val) DMA_TIMEOUT_US = 0 → exec (.dmaTimeout c) s = .next s))

/-! The engines (R62, R63, R84-R86, R98-R173). -/

/-- Every MM, VX and SF instruction that passes its checks joins its engine's queue and executes there, changing nothing but its
destination; one that a check stops raises a precise fault (R63, R66, R89, R100-R103, R128, R151). -/
def Obligations.EngineInstructionsExecute : Prop :=
  ∀ (s : State) (c : CoreId) (h : Hdr) (i : Instr) (k : Nat), coreOf i = some c → hdrOf i = h → engineOf i = some k →
    (EngineReady s c h k → engineCheck s c i = none → engineCan s c i →
      ∃ t u w e, exec i s = .next t ∧ EngineFrame s t c h i k
        ∧ AtEngine s u c h ∧ e.ins = i ∧ runEng u c.die.val c.n.val k e = .done w
        ∧ t = markDone w c.die.val c.n.val k (engQueue (coreAt s c) k).length)
    ∧ (Issues s c h → ∀ code x, engineCheck s c i = some (code, x) →
      ∃ t, exec i s = .next t
        ∧ FaultRecorded s t c 0 code (slotAddr s c.die.val c.n.val (pcOf s c.die.val c.n.val)) x)

/-- MMA accumulates the product, MINIT loads the accumulator, MOUT and MMAO round it into a view or a conveyor tile and, with KEEP
0, clear it; a full conveyor keeps the tile with its engine (R85, R99, R101, R107, R110-R114). -/
def Obligations.MatrixInstructionsWriteTheirResult : Prop :=
  ∀ (s : State) (c : CoreId) (h : Hdr) (o : MmOp) (k key : Nat) (a b out : Desc) (old : Nat → Nat → Machine.Num),
    k = o.me.toNat → key = accKey k o → a = aget (coreAt s c) o.da → b = aget (coreAt s c) o.db →
    out = aget (coreAt s c) o.dout → old = accAt (getAcc (coreAt s c) key) → EngineReady s c h k →
    (engineCheck s c (.mma c h o) = none →
      ∃ t, exec (.mma c h o) s = .next t ∧ EngineFrame s t c h (.mma c h o) k
        ∧ AccAfter s t c key (productAt s c.die.val o a b old) ∧ (coreAt t c).conv = (coreAt s c).conv
        ∧ regWord t (meBlk c.die.val c.n.val k) = regWord s (meBlk c.die.val c.n.val k)
        ∧ regWord t (meBlk c.die.val c.n.val k + ME_CNT_ARRAY.off)
          = regWord s (meBlk c.die.val c.n.val k + ME_CNT_ARRAY.off) + BitVec.ofNat 64 (mmCycles o a b))
    ∧ (engineCheck s c (.minit c h o) = none →
      ∃ t, exec (.minit c h o) s = .next t ∧ EngineFrame s t c h (.minit c h o) k
        ∧ AccAfter s t c key (fun i j => if i < (dimsA o.ta a).1 ∧ j < (dimsA o.ta a).2 then
            (if o.ta then elemNum s c.die.val a j i else elemNum s c.die.val a i j) else old i j)
        ∧ (coreAt t c).conv = (coreAt s c).conv ∧ ∀ x, engineReg c k x → regWord t x = regWord s x)
    ∧ (engineCheck s c (.mout c h o) = none → (o.dest = true → (tget [] (coreAt s c).conv k).length < 16) →
      ∃ t, exec (.mout c h o) s = .next t ∧ EngineFrame s t c h (.mout c h o) k
        ∧ AccAfter s t c key (fun i j => if o.keep then old i j else Machine.Num.zero false)
        ∧ OutputAfter s t c k o out old
        ∧ regWord t (meBlk c.die.val c.n.val k + ME_CNT_ARRAY.off)
          = regWord s (meBlk c.die.val c.n.val k + ME_CNT_ARRAY.off))
    ∧ (engineCheck s c (.mmao c h o) = none → (o.dest = true → (tget [] (coreAt s c).conv k).length < 16) →
      ∃ t, exec (.mmao c h o) s = .next t ∧ EngineFrame s t c h (.mmao c h o) k
        ∧ AccAfter s t c key
            (fun i j => if o.keep then productAt s c.die.val o a b old i j else Machine.Num.zero false)
        ∧ OutputAfter s t c k o out (productAt s c.die.val o a b old)
        ∧ regWord t (meBlk c.die.val c.n.val k + ME_CNT_ARRAY.off)
          = regWord s (meBlk c.die.val c.n.val k + ME_CNT_ARRAY.off) + BitVec.ofNat 64 (mmCycles o a b))
    ∧ (∀ i f, (i = .mout c h o ∧ f = old) ∨ (i = .mmao c h o ∧ f = productAt s c.die.val o a b old) →
      engineCheck s c i = none → o.dest = true → 16 ≤ (tget [] (coreAt s c).conv k).length →
      ∃ t, exec i s = .next t
        ∧ tget none (coreAt t c).held k = some (mmTile out (keyFor s c.die.val c.n.val out.tid o.site) (o.ornd = 1)
            ((List.range out.rows.toNat).map fun p => (List.range out.cols.toNat).map fun q => f p q)).1
        ∧ (∃ e, e.ins = i ∧ e.done = false ∧ engQueue (coreAt t c) k = engQueue (coreAt s c) k ++ [e])
        ∧ (coreAt t c).conv = (coreAt s c).conv
        ∧ AccAfter s t c key (fun p q => if o.keep then f p q else Machine.Num.zero false)
        ∧ SameMemory s t ∧ OtherCores s t c)

/-- VOP, VLP, VRED, VPERM and VOPT on one group of elements, and VLPLD, write what R123-R144 say: each result computed from the
sources as they stood, rounded, and its flags kept. -/
def Obligations.VectorInstructionsWriteTheirResult : Prop :=
  ∀ (s : State) (c : CoreId) (h : Hdr) (b : Nat), EngineReady s c h 4 → b = veBlk c.die.val c.n.val →
    (∀ (o : VxOp) (i : Instr), engineCheck s c i = none → engineCan s c i → vxEc o ≤ 1024 →
      (i = .vop c h o → ∃ t, exec i s = .next t ∧ EngineFrame s t c h i 4
        ∧ GroupWritten s t c i o b ((List.range (vxEc o)).map fun e =>
            laneOp o.lop.toNat (sourceAt s c o.s0 o.imm16 e) (sourceAt s c o.s1 o.imm16 e) (sourceAt s c o.s2 o.imm16 e))
        ∧ Popped s t c [o.s0, o.s1, o.s2] 1)
      ∧ (i = .vlp c h o → ∃ t, exec i s = .next t ∧ EngineFrame s t c h i 4
        ∧ GroupWritten s t c i o b ((List.range (vxEc o)).map fun e =>
            laneRun (tget [] (coreAt s c).lps (vlpSlot o)) laneTemps
              ⟨sourceAt s c o.s0 o.imm16 e, sourceAt s c o.s1 o.imm16 e, sourceAt s c o.s2 o.imm16 e, e⟩ Flags.none)
        ∧ Popped s t c [o.s0, o.s1, o.s2] 1)
      ∧ (i = .vred c h o → ∃ t, exec i s = .next t ∧ EngineFrame s t c h i 4
        ∧ GroupWritten s t c i o b ((List.range (vredCount o)).map fun r =>
            vredRow (o.lop.toNat % 4) ((List.range (min 32 (vxEc o - 32 * r))).map fun j =>
              sourceAt s c o.s0 o.imm16 (32 * r + j)))
        ∧ Popped s t c [o.s0] 1)
      ∧ (i = .vperm c h o → ∃ t cs, exec i s = .next t ∧ EngineFrame s t c h i 4
        ∧ cs = ((List.range (vxEc o)).map fun e =>
            let q := permSel s c.die.val (coreAt s c) o (captured s c i o) e
            if q < vxEc o then tileCode (coreAt s c) o.s0.num.toNat q else 0)
        ∧ (o.dkind = false → SameMemory s t
          ∧ ∀ e < vxEc o, tileCode (coreAt t c) o.dnum.toNat e = cs.getD e 0)
        ∧ (o.dkind = true → (coreAt t c).tiles = (coreAt s c).tiles ∧ ∀ x, mget t.mem x
          = mget (writeCodes s c.die.val (aget (coreAt s c) (descNum o.dnum)) (vxEc o + 1) 0 cs).mem x)))
    ∧ (∀ (o : VlpldOp) (i : Instr) (ops : List (BitVec 32)), i = .vlpld c h o → engineCheck s c i = none →
      engineCan s c i → ops = ((List.range 32).map fun p =>
        BitVec.ofNat 32 (leNat (peek s c.die.val (localOf (xget (coreAt s c) o.xa + o.imm).toNat + 4 * p) 4))) →
      ∃ t, exec i s = .next t ∧ EngineFrame s t c h i 4
        ∧ tget [] (coreAt t c).lps o.slot.toNat = ops.map (fun w => if laneOk w then w else 0)
        ∧ (∀ q, q ≠ o.slot.toNat → tget [] (coreAt t c).lps q = tget [] (coreAt s c).lps q)
        ∧ SameMemory s t ∧ (coreAt t c).tiles = (coreAt s c).tiles ∧ (coreAt t c).conv = (coreAt s c).conv
        ∧ rf t b VE_STATUS_BAD_LOP = (if ops.all laneOk then rf s b VE_STATUS_BAD_LOP else 1))
    ∧ (∀ (o : VoptOp) (i : Instr) (p : OptPar) (ec : Nat) (w g m v : Desc), i = .vopt c h o → engineCheck s c i = none →
      engineCan s c i → ec = o.ecm1.toNat + 1 → ec ≤ 1024 →
      p = optParOf (peek s c.die.val (localOf (xget (coreAt s c) o.xp).toNat) 32) →
      w = aget (coreAt s c) o.dw → g = aget (coreAt s c) o.dg → m = aget (coreAt s c) o.dm → v = aget (coreAt s c) o.dv →
      ∃ t rs, exec i s = .next t ∧ EngineFrame s t c h i 4
        ∧ rs = ((List.range ec).map fun e =>
            let k := regWord s (dieBlk c.die.val + 0x20)
            let st := regWord s (slotOf c + 0x50)
            optElement p (viewCode s c.die.val w e) (viewCode s c.die.val g e) (viewCode s c.die.val m e)
              (viewCode s c.die.val v e) (optBits (kTensor k st p.tw 0) w e) (optBits (kTensor k st p.tm 1) m e))
        ∧ (∀ x, mget t.mem x = mget (writeCodes (writeCodes (writeCodes s c.die.val w (ec + 1) 0 (rs.map (·.1)))
            c.die.val m (ec + 1) 0 (rs.map (·.2.1))) c.die.val v (ec + 1) 0 (rs.map (·.2.2.1))).mem x)
        ∧ ∀ y, y < 4 → (regWord t b).getLsbD y
          = ((regWord s b).getLsbD y || (Flags.all (rs.map (·.2.2.2))).nibble.testBit y))

/-- SFN and SFD on one group, STLD, and the row-statistics forms write what R148-R171 say; a bad table image sets TBL_BAD and
changes no slot. -/
def Obligations.SpecialFunctionsWriteTheirResult : Prop :=
  ∀ (s : State) (c : CoreId) (h : Hdr) (b : Nat) (o : VxOp) (i : Instr), EngineReady s c h 5 →
    b = sfeBlk c.die.val c.n.val → engineCheck s c i = none → engineCan s c i →
    (∀ empty, empty = (match userSlot o.lop.toNat with
        | some q => !tblValid s c.die.val c.n.val q
        | none => false) → vxEc o ≤ 1024 →
      (i = .sfn c h o → ∃ t, exec i s = .next t ∧ EngineFrame s t c h i 5
        ∧ GroupWritten s t c i o b ((List.range (vxEc o)).map fun e =>
            fnEval s (coreAt s c) o.lop.toNat false empty (sourceAt s c o.s0 0 e))
        ∧ Popped s t c [o.s0] 1
        ∧ rf t b SFE_STATUS_SLOT_EMPTY = (if empty then 1 else rf s b SFE_STATUS_SLOT_EMPTY))
      ∧ (i = .sfd c h o → ∃ t, exec i s = .next t ∧ EngineFrame s t c h i 5
        ∧ GroupWritten s t c i o b ((List.range (vxEc o)).map fun e =>
            let y := fnEval s (coreAt s c) o.lop.toNat true empty (sourceAt s c o.s0 0 e)
            let dy := sourceAt s c o.s1 0 e
            let r := laneArith (y.1.isNan || dy.isNan) (nmul y.1 dy)
            (r.1, y.2.or r.2))
        ∧ Popped s t c [o.s0, o.s1] 1
        ∧ rf t b SFE_STATUS_SLOT_EMPTY = (if empty then 1 else rf s b SFE_STATUS_SLOT_EMPTY)))
    ∧ (∀ q img, i = .stld c h o → userSlot o.lop.toNat = some q →
      img = peek s c.die.val (localOf (aget (coreAt s c) (descNum o.s0.num)).base.toNat) 2112 →
      ∃ t, exec i s = .next t ∧ EngineFrame s t c h i 5 ∧ SameMemory s t
        ∧ (∀ p, getSlot (coreAt t c) p = if p = q ∧ imageOk img = true then { getSlot (coreAt s c) q with shadow := img }
            else getSlot (coreAt s c) p)
        ∧ (∀ p < 4, tblPending t c.die.val c.n.val p
            = (tblPending s c.die.val c.n.val p || (decide (p = q) && imageOk img))
          ∧ tblValid t c.die.val c.n.val p = tblValid s c.die.val c.n.val p
          ∧ tblGen t c.die.val c.n.val p = tblGen s c.die.val c.n.val p)
        ∧ rf t b SFE_STATUS_TBL_BAD = (if imageOk img then rf s b SFE_STATUS_TBL_BAD else 1))
    ∧ (∀ row cycles, (i = .rsmax c h o ∧ row = rsmaxRow ∧ cycles = 5 * rsNt o + 7 + treeLevels (rsNt o))
        ∨ (i = .rsexp c h o ∧ row = rsexpRow ∧ cycles = 4 * rsNt o)
        ∨ (i = .rsmom c h o ∧ row = rsmomRow ∧ cycles = 2 * rsNt o + 4 * (treeLevels (rsNt o) + 1) + 2) →
      ∃ t u r, exec i s = .next t ∧ EngineFrame s t c h i 5 ∧ AtEngine s u c h
        ∧ r = (List.range (rsRows o (aget (coreAt s c) (descNum o.s0.num)))).foldl
            (row c.die.val c.n.val o { captured s c i o with
              got := if o.s0.kind = 3 then (tget [] (coreAt s c).conv o.s0.num.toNat).take (rsNt o) else [] })
            (sfeCycles u c.die.val c.n.val cycles, Flags.none)
        ∧ (coreAt t c).tiles = (coreAt r.1 c).tiles ∧ SameMemory r.1 t ∧ Popped s t c [o.s0] (rsNt o)
        ∧ ∀ y, y < 4 → (regWord t b).getLsbD y = ((regWord s b).getLsbD y || r.2.nibble.testBit y))
    ∧ (i = .rsctl c h o →
      ∃ t, exec i s = .next t ∧ EngineFrame s t c h i 5 ∧ SameMemory s t ∧ (coreAt t c).conv = (coreAt s c).conv
        ∧ (rsFn o = 0 → ∀ r < 32, (List.range 6).map (fun k => tileCode (coreAt t c) (sfTs o) (32 * r + k))
            = [0xFF80, 0, 0, 0x3F80, 0xFF80, 0])
        ∧ (rsFn o = 1 → ∀ r < 32, ∀ k < 8, tileCode (coreAt t c) (sfTs o) (32 * r + 6 + k) = 0)
        ∧ ∃ u r, AtEngine s u c h
          ∧ r = (List.range 32).foldl (rsctlRow c.die.val c.n.val o (captured s c i o))
              (sfeCycles u c.die.val c.n.val (if rsFn o < 2 then 2 else 14), Flags.none)
          ∧ (coreAt t c).tiles = (coreAt r.1 c).tiles
          ∧ ∀ y, y < 4 → (regWord t b).getLsbD y = ((regWord s b).getLsbD y || r.2.nibble.testBit y))

/-- A completion removes the oldest executed instruction of its engine, acknowledged store, performed compressor command or
accepted lookup, and signals its SEN; a core in WAIT with MODE 1 that has then drained enters HOLD, or goes on where that signal
has made its wake condition true (R66, R87). A freed
conveyor slot takes the tile that its engine holds, whose instruction has then executed; a slot swap makes the shadow table
active, counts GEN modulo 16 and clears PENDING; each does nothing where there is nothing to do (R85, R86, R161). -/
def Obligations.CompletionsSignalAndConveyorSlotsTurn : Prop :=
  (∀ (s t0 : State) (c : CoreId) (u : ExecUnit) (k : CoreSt) (sen : Bool) (q : Nat), dieOk s c.die.val = true → q < 64 →
     coresClocked s c.die.val = true → (coreAt s c).upsets = [] → (sen = true → semVal s c.die.val c.n.val q < 65535) →
     ((∃ j pre e post, (u, j) ∈ [(.me 0, 0), (.me 1, 1), (.me 2, 2), (.me 3, 3), (.ve, 4), (.sfe, 5)]
         ∧ engQueue (coreAt s c) j = pre ++ e :: post ∧ (∀ x ∈ pre, x.done = false) ∧ e.done = true
         ∧ sen = (hdrOf e.ins).sen ∧ q = (hdrOf e.ins).ssem.toNat
         ∧ k = { coreAt s c with eng := tset (coreAt s c).eng j (pre ++ post) })
       ∨ (∃ pre o post, u = .store ∧ (coreAt s c).stores = pre ++ o :: post ∧ o.done = true
         ∧ unserved s c.die.val (addrDie o.addr) = false ∧ (∀ x ∈ pre, storeStatus s c.die.val c.n.val x = none) ∧ sen = o.sen ∧ q = o.ssem.toNat
         ∧ k = { coreAt s c with stores := pre ++ post })
       ∨ (∃ pre o post tag, u = .gc ∧ (coreAt s c).gcOwed = pre ++ o :: post ∧ o.stage = .writing tag 0
         ∧ (∀ x ∈ pre, ∀ g n, x.stage = .writing g n → answersOf s c.die.val (unitGc (c.n.val / 16)) g n = none)
         ∧ sen = o.sen ∧ q = o.ssem.toNat ∧ k = { coreAt s c with gcOwed := pre ++ post })
       ∨ (∃ o post, u = .plu ∧ (coreAt s c).pluOwed = o :: post ∧ sen = o.sen ∧ q = o.ssem.toNat
         ∧ k = { coreAt s c with pluOwed := post })) →
     t0 = setCore s c.die.val c.n.val k →
     ((∀ b h o, (coreAt s c).hold = some ⟨.wait, .wait b h o⟩ →
         (∀ r < 64, o.imm.getLsbD r = true →
           semVal s c.die.val c.n.val r = 0 ∧ ¬ (sen = true ∧ r = q))
         ∧ (o.func.getLsbD 0 = true → rf s (slotOf c) CORE_WTIME_WTIME ≠ 0)) →
     ∃ t, exec (.instructionComplete c u) s = .next t
       ∧ coreAt t c = k ∧ OtherCores s t c
       ∧ (∀ r < 64, semVal t c.die.val c.n.val r = semVal s c.die.val c.n.val r + (if sen = true ∧ r = q then 1 else 0))
       ∧ coreState t c.die.val c.n.val
         = (if coreState s c.die.val c.n.val = stWAIT ∧ rf s (slotOf c) CORE_PWR_MODE = 1 ∧ drained k = true then stHOLD
            else coreState s c.die.val c.n.val)
       ∧ (∀ a, ¬ (sen = true ∧ a = slotOf c + 8 * q + SEM_VALUE.off) → a ≠ slotOf c + CORE_STATUS_STATE.off →
           regWord t a = regWord s a)
       ∧ t = { s with regs := t.regs, cores := t0.cores })
     ∧ (∀ h o, (coreAt s c).hold = some ⟨.wait, .wait c h o⟩ → h.sen = false → o.imm.getLsbD q = true → sen = true →
       coreState s c.die.val c.n.val = stWAIT → rf s (slotOf c) CORE_PWR_MODE = 1 → drained k = true →
       pcOf s c.die.val c.n.val < 0x180000 → NoLoopEnds k (pcOf s c.die.val c.n.val + 16) →
       ∃ t, exec (.instructionComplete c u) s = .next t
         ∧ coreAt t c = { k with hold := none } ∧ coreState t c.die.val c.n.val = stRUN
         ∧ pcOf t c.die.val c.n.val = pcOf s c.die.val c.n.val + 16 ∧ OtherCores s t c ∧ SameMemory s t))
  ∧ (∀ (s : State) (c : CoreId) (k : Fin 4), dieOk s c.die.val = true → coresClocked s c.die.val = true →
       (coreAt s c).upsets = [] →
       (tget none (coreAt s c).held k.val = none → exec (.conveyorSlotFree c k) s = .next s)
       ∧ (16 ≤ (tget [] (coreAt s c).conv k.val).length → exec (.conveyorSlotFree c k) s = .next s)
       ∧ (∀ tile pre e post, tget none (coreAt s c).held k.val = some tile → (tget [] (coreAt s c).conv k.val).length < 16 →
         engQueue (coreAt s c) k.val = pre ++ e :: post → (∀ x ∈ pre, x.done = true) → e.done = false →
         (∀ x ∈ post, x.done = true) → (∀ j < 6, j ≠ k.val → ∀ x ∈ engQueue (coreAt s c) j, x.done = true) →
         ∃ t, exec (.conveyorSlotFree c k) s = .next t
           ∧ coreAt t c = { coreAt s c with
               conv := tset (coreAt s c).conv k.val (tget [] (coreAt s c).conv k.val ++ [tile])
               held := tset (coreAt s c).held k.val none
               eng := tset (coreAt s c).eng k.val (pre ++ { e with done := true } :: post) }
           ∧ OtherCores s t c ∧ t = { s with cores := t.cores })
       ∧ (EnginesIdle (coreAt s c) → tblPending s c.die.val c.n.val k.val = false → exec (.slotSwap c k) s = .next s)
       ∧ (EnginesIdle (coreAt s c) → tblPending s c.die.val c.n.val k.val = true →
         ∃ t, exec (.slotSwap c k) s = .next t
           ∧ (∀ j, getSlot (coreAt t c) j = if j = k.val then
               { getSlot (coreAt s c) j with active := (getSlot (coreAt s c) j).shadow } else getSlot (coreAt s c) j)
           ∧ (∀ j < 4, tblGen t c.die.val c.n.val j
                 = (if j = k.val then (tblGen s c.die.val c.n.val j + 1) % 16 else tblGen s c.die.val c.n.val j)
               ∧ tblPending t c.die.val c.n.val j = (tblPending s c.die.val c.n.val j && decide (j ≠ k.val))
               ∧ tblValid t c.die.val c.n.val j = (tblValid s c.die.val c.n.val j || decide (j = k.val)))
           ∧ coreAt t c = { coreAt s c with slots := (coreAt t c).slots } ∧ OtherCores s t c
           ∧ (∀ a, a ≠ sfeBlk c.die.val c.n.val + 0x18 → regWord t a = regWord s a)
           ∧ t = { s with regs := t.regs, cores := t.cores }))

/-- GC_COMMAND packs the operands of the oldest command and writes shard, residuals and thresholds, counts them, and leaves the
command performed; without the unit, or without a command, nothing happens (R294-R298, R310). PLU_LOOKUP performs the oldest
request of a row's unit and writes its result, header last; PLU_COMPLETE writes a header that has waited for its entries, and
then signals the issuing core. A malformed request answers
STATUS 3 (R242, R245-R247, R250). -/
def Obligations.CompressorAndPrefixUnitAnswer : Prop :=
  (∀ (s : State) (c : ClId), dieOk s c.die.val = true →
     ((hasGc s = false ∨ getGc s c.die.val c.cl.val = []) → exec (.gcCommand c) s = .next s)
     ∧ ∀ x rest g gs rs ts y o pre post b, hasGc s = true → getGc s c.die.val c.cl.val = x :: rest →
       g = gcDescOf x.words → b = gcBlk c.die.val c.cl.val →
       UnitSees (fencePermits s c.die.val) s c.die.val c.cl.val g.gaddr (2 * g.n) gs →
       UnitSees (fencePermits s c.die.val) s c.die.val c.cl.val g.raddr (2 * g.n) rs →
       UnitSees (fencePermits s c.die.val) s c.die.val c.cl.val g.taddr (if g.mode = 2 then 2 * g.segs else 0) ts →
       y = gcPerform g (kTensor (regWord s (dieBlk c.die.val + 0x20)) x.step g.rtid g.site) x.step gs rs ts →
       UnitLands (fencePermits s c.die.val) s c.die.val c.cl.val g.out y.packed.length →
       UnitLands (fencePermits s c.die.val) s c.die.val c.cl.val g.raddr (2 * g.n) →
       UnitLands (fencePermits s c.die.val) s c.die.val c.cl.val g.taddr (if g.mode = 2 then 2 * g.segs else 0) →
       NothingAsked s c.die.val (unitGc c.cl.val) → coresClocked s c.die.val = true →
       (coreAt s ⟨c.die, x.n⟩).gcOwed = pre ++ o :: post →
       post.length + 1 = ((getGc s c.die.val c.cl.val).filter fun z => z.n.val == x.n.val).length →
       ∃ t, exec (.gcCommand c) s = .next t
         ∧ Stored s t ([at_ g.raddr y.resid] ++ (if g.mode = 2 then [at_ g.taddr y.taus] else []) ++ [at_ g.out y.packed])
         ∧ (∀ f k, k < 16 → getGc t f k = if f = c.die.val ∧ k = c.cl.val then rest else getGc s f k)
         ∧ (∀ e : CoreId, coreAt t e = { coreAt s e with
             ibuf := (coreAt t e).ibuf
             gcOwed := if e = ⟨c.die, x.n⟩ then
               pre ++ { o with stage := .writing ((getDie s c.die.val).tag % 2 ^ 32) 0 } :: post else (coreAt s e).gcOwed })
         ∧ regWord t (b + GC_CNT_IN.off)
           = regWord s (b + GC_CNT_IN.off) + BitVec.ofNat 64 (g.n * (if g.mode = 1 then 3 else 1))
         ∧ regWord t (b + GC_CNT_KEPT.off) = regWord s (b + GC_CNT_KEPT.off) + BitVec.ofNat 64 y.kept
         ∧ regWord t (b + GC_CNT_BYTES.off) = regWord s (b + GC_CNT_BYTES.off) + BitVec.ofNat 64 y.packed.length
         ∧ rf t b GC_STATUS_NONFINITE = (if y.nonfinite then 1 else rf s b GC_STATUS_NONFINITE)
         ∧ rf t b GC_STATUS_SAT = (if y.sat then 1 else rf s b GC_STATUS_SAT)
         ∧ (∀ k, k < 4 → (regWord t b).getLsbD k = ((regWord s b).getLsbD k || y.flags.nibble.testBit k))
         ∧ (∀ a, ¬ TrafficReg a → a ∉ [b, b + GC_CNT_IN.off, b + GC_CNT_KEPT.off, b + GC_CNT_BYTES.off] →
           regWord t a = regWord s a))
  ∧ (∀ (s : State) (d : Die) (r : PluReq) (b : Nat), dieOk s d.val = true → b = pluBlk d.val →
       NothingAsked s d.val unitPlu → fabricRuns s d.val = true →
       (∀ rest hdr w st es, hasPlu s d.val = true → getPlu s d.val = ⟨r :: rest, none, hdr⟩ → s.upsets = [] →
         (∀ e : Die, Awake s d.val e.val) → pluLookup s d.val r = (w, some st) → st ≤ 3 →
         es = (if st ≤ 1 then (w.entries.map fun e => leBytes 8 e).flatten else []) →
         UnitLands (pqPermits r) s d.val 0 (pqRes r.words) (64 + es.length) →
         ∃ t, exec (.pluLookup d) s = .next t
           ∧ Stored s t ((if es = [] then [] else [at_ (pqRes r.words + 64) es])
               ++ [at_ (pqRes r.words) (pluHeader st w.pos (if st ≤ 1 then w.entries.length else 0) w.node)])
           ∧ (∀ f, getPlu t f = if f = d.val then ⟨rest, some r, []⟩ else getPlu s f)
           ∧ regWord t (b + PLU_CNT_NODES.off) = regWord s (b + PLU_CNT_NODES.off) + BitVec.ofNat 64 w.visits
           ∧ regWord t (b + PLU_CNT_COLLIDE.off) = regWord s (b + PLU_CNT_COLLIDE.off) + BitVec.ofNat 64 w.collide
           ∧ regWord t (b + PLU_CNT_TOKCMP.off) = regWord s (b + PLU_CNT_TOKCMP.off) + BitVec.ofNat 64 w.cmp
           ∧ (∀ a, ¬ TrafficReg a → a ∉ [b + PLU_CNT_NODES.off, b + PLU_CNT_COLLIDE.off, b + PLU_CNT_TOKCMP.off] →
             regWord t a = regWord s a)
           ∧ CoresButIbuf s t)
       ∧ (∀ rest hdr, hasPlu s d.val = true → getPlu s d.val = ⟨r :: rest, none, hdr⟩ → pqOk r.words = false →
         UnitLands (pqPermits r) s d.val 0 (pqRes r.words) 64 →
         ∃ t, exec (.pluLookup d) s = .next t ∧ Stored s t [at_ (pqRes r.words) (pluHeader 3 0 0 0)]
           ∧ getPlu t d.val = ⟨rest, some r, []⟩)
       ∧ ((getPlu s d.val).finished = none → exec (.pluComplete d) s = .next s)
       ∧ ((getPlu s d.val).finished = some r → (getPlu s d.val).header ≠ [] →
         UnitLands (pqPermits r) s d.val 0 (pqRes r.words) (getPlu s d.val).header.length →
         ∃ t, exec (.pluComplete d) s = .next t ∧ Stored s t [at_ (pqRes r.words) (getPlu s d.val).header]
           ∧ getPlu t d.val = { getPlu s d.val with header := [] }
           ∧ regWord t (b + PLU_DONE.off) = regWord s (b + PLU_DONE.off))
       ∧ (∀ sem n, (getPlu s d.val).finished = some r → (getPlu s d.val).header = [] →
         (getCore s r.die.val r.n.val).upsets = [] → n = semVal s r.die.val r.n.val sem →
         sem = (wd r.words 4).toNat / 2 ^ 16 % 64 → n < 65535 →
         ∃ t, exec (.pluComplete d) s = .next t
           ∧ (∀ f, getPlu t f = if f = d.val then { getPlu s f with finished := none } else getPlu s f)
           ∧ regWord t (b + PLU_DONE.off) = regWord s (b + PLU_DONE.off) + 1
           ∧ semVal t r.die.val r.n.val sem = n + (if (wd r.words 4).getLsbD 22 then 1 else 0)
           ∧ (∀ a, a ≠ b + PLU_DONE.off → a ≠ coreBlk r.die.val r.n.val + 8 * sem + SEM_VALUE.off →
             regWord t a = regWord s a)
           ∧ t.cores = s.cores ∧ SameMemory s t))

/-! The exchange and the Steelyard (R301-R307). -/

/-- In an open step RED_POLL polls the entries not done: one whose arrival words all show the step is summed in slot order into
OUT, with its done word and its counts, and one not complete is polled again later; outside a step nothing happens (R302,
R303). RED_TIMEOUT ends an entry whose arrival words are not all there: no done word, ERR and TIMEOUT set, a notice that
accuses the module of the lowest missing slot (R304). -/
def Obligations.ReductionPollsOrTimesOut : Prop :=
  (∀ (s : State) (d : Die) (b : Nat), dieOk s d.val = true → b = redBlk d.val →
     (dieStep s d.val = none → exec (.redPoll d) s = .next s)
     ∧ ∀ step n i eb arr e words, dieStep s d.val = some step → n = redCount s d.val → i < n →
       (∀ j < n, j ≠ i → (tlookup (getRed s d.val).done j).isSome = true ∨ j ∈ (getRed s d.val).ended) →
       (tlookup (getRed s d.val).done i).isSome = false → i ∉ (getRed s d.val).ended →
       UnitSees (fencePermits s d.val) s d.val 0 (redTable s d.val + BitVec.ofNat 64 (64 + 64 * i)) 64 eb →
       e = redEntryOf eb → UnitSees (fencePermits s d.val) s d.val 0 e.inbox (8 * e.g) arr →
       words = ((List.range e.g).map fun k => leAt arr (8 * k) 8) → NothingAsked s d.val unitRed →
       (getRed s d.val).wait = [] → fabricRuns s d.val = true →
       ((∃ w ∈ words, w / 2 ^ 32 ≠ step % 2 ^ 32) → (getRed s d.val).done.length < n →
         ∃ t, exec (.redPoll d) s = .next t
           ∧ regWord t (b + RED_CNT_POLL.off) = regWord s (b + RED_CNT_POLL.off) + 1
           ∧ (∀ a, ¬ TrafficReg a → a ≠ b + RED_CNT_POLL.off → regWord t a = regWord s a)
           ∧ t = { s with regs := t.regs })
       ∧ (∀ (shards : List (List Byte)) cs sq, (∀ w ∈ words, w / 2 ^ 32 = step % 2 ^ 32) → shards.length = e.g →
         (∀ k < e.g, UnitSees (fencePermits s d.val) s d.val 0 (redSlot e k) (words.getD k 0 % 2 ^ 32) (shards.getD k [])
           ∧ headerOk e (step % 2 ^ 32) (words.getD k 0 % 2 ^ 32) (shards.getD k []) = true) →
         cs = ((List.range e.n).map fun j =>
           redElement (shards.map fun x => (unpackShard e x).getD j (Machine.Num.zero false))) →
         sq = squareSum (cs.map (·.1)) →
         UnitLands (fencePermits s d.val) s d.val 0 e.out (2 * e.n) → UnitLands (fencePermits s d.val) s d.val 0 e.done 8 →
         ∃ t u, exec (.redPoll d) s = .next t ∧ t = styOwn u d.val (step % 2 ^ 32)
           ∧ Stored s u [at_ e.out (cs.map fun c => leBytes 2 c.1).flatten,
               at_ e.done (leBytes 8 (step % 2 ^ 32 * 2 ^ 32
                 + b2n (cs.any fun c => (bf16 c.1).isNan || (bf16 c.1).isInf)))]
           ∧ getRed u d.val = { getRed s d.val with done := tset (getRed s d.val).done i sq.1 }
           ∧ rf u b RED_DONE_COUNT = (getRed u d.val).done.length % 2 ^ RED_DONE_COUNT.width
           ∧ regWord u (b + RED_CNT_POLL.off) = regWord s (b + RED_CNT_POLL.off) + 1
           ∧ regWord u (b + RED_CNT_ADD.off) = regWord s (b + RED_CNT_ADD.off) + BitVec.ofNat 64 ((e.g - 1) * e.n)
           ∧ (∀ y, y < 4 → (regWord u b).getLsbD y = ((regWord s b).getLsbD y
               || ((Flags.all (cs.map (·.2))).or sq.2).nibble.testBit y))
           ∧ (∀ a, ¬ TrafficReg a → a ∉ [b, b + RED_CNT_POLL.off, b + RED_CNT_ADD.off, b + RED_DONE_COUNT.off] →
             regWord u a = regWord s a)
           ∧ CoresButIbuf s u))
  ∧ (∀ (s : State) (d : Die) (b : Nat), dieOk s d.val = true → b = redBlk d.val →
       ((dieStep s d.val = none ∨ rf s b RED_TIMEOUT_US = 0) → exec (.redTimeout d) s = .next s)
       ∧ ∀ step n i eb arr e k, dieStep s d.val = some step → rf s b RED_TIMEOUT_US ≠ 0 → n = redCount s d.val → i < n →
         (∀ j < n, j ≠ i → (tlookup (getRed s d.val).done j).isSome = true ∨ j ∈ (getRed s d.val).ended) →
         (tlookup (getRed s d.val).done i).isSome = false → i ∉ (getRed s d.val).ended →
         UnitSees (fencePermits s d.val) s d.val 0 (redTable s d.val + BitVec.ofNat 64 (64 + 64 * i)) 64 eb →
         e = redEntryOf eb → UnitSees (fencePermits s d.val) s d.val 0 e.inbox (8 * e.g) arr →
         k < e.g → leAt arr (8 * k) 8 / 2 ^ 32 ≠ step % 2 ^ 32 →
         (∀ j < k, leAt arr (8 * j) 8 / 2 ^ 32 = step % 2 ^ 32) → NothingAsked s d.val unitRed →
         (getRed s d.val).wait = [] → fabricRuns s d.val = true →
         ∃ t u, exec (.redTimeout d) s = .next t
           ∧ t = raiseNotice u d.val 0 (addrMod (redSlot e k)) 0 0 5 4
           ∧ getRed u d.val = { getRed s d.val with ended := (getRed s d.val).ended ++ [i] }
           ∧ rf u b RED_STATUS_ERR = 1 ∧ rf u b RED_STATUS_TIMEOUT = 1
           ∧ (∀ a, a ≠ b → regWord u a = regWord s a) ∧ t.mem = s.mem ∧ t.cores = s.cores)

/-- A message of the current step is counted and joins the node's parts, and a broadcast of it gives the node its clipping factor
(R305-R307); a message of another step is counted and discarded. A node with all its inputs sends its partial to the node
above, and the root computes the factor; the factor is written at STY_BCAST and forwarded. -/
def Obligations.SteelyardPassesPartialsAndFactor : Prop :=
  ∀ (s : State) (d : Die) (m : StyMsg) (w : StyDown) (b : Nat), dieOk s d.val = true → fabricRuns s d.val = true → b = styBlk d.val →
    (styFresh s d.val m.step = true →
      ∃ t, exec (.styMessage d m) s = .next t ∧ (getSty t d.val).parts = (getSty s d.val).parts ++ [m]
        ∧ regWord t (b + STY_CNT_MSG.off) = regWord s (b + STY_CNT_MSG.off) + 1)
    ∧ (styFresh s d.val w.step = true →
      ∃ t, exec (.styBroadcast d w) s = .next t
        ∧ rf t b STY_CLIP_STEP = w.step.toNat ∧ rf t b STY_CLIP_CLIP = w.clip.toNat
        ∧ rf t b STY_SUM_SUMH = w.sumh.toNat ∧ rf t b STY_SUM_SUML = w.suml.toNat
        ∧ rf t b STY_STATUS_NONFINITE = b2n w.nonfinite ∧ rf t b STY_STATUS_CLIPVALID = 1
        ∧ regWord t (b + STY_CNT_MSG.off) = regWord s (b + STY_CNT_MSG.off) + 1)
    ∧ (∀ i, (i = .styMessage d m ∧ styFresh s d.val m.step = false) ∨ (i = .styBroadcast d w ∧ styFresh s d.val w.step = false) →
      ∃ t, exec i s = .next t ∧ rf t b STY_STATUS_STALE = 1
        ∧ regWord t (b + STY_CNT_STALE.off) = regWord s (b + STY_CNT_STALE.off) + 1
        ∧ (∀ a, a ≠ b + STY_STATUS_STALE.off → a ≠ b + STY_CNT_STALE.off → regWord t a = regWord s a)
        ∧ t = { s with regs := t.regs })
    ∧ (styFresh s d.val m.step = true → (getSty s d.val).own = none →
      (getRed s d.val).done.length < redCount s d.val →
      ∃ t, exec (.styMessage d m) s = .next t
        ∧ getSty t d.val = { getSty s d.val with parts := (getSty s d.val).parts ++ [m] }
        ∧ regWord t (b + STY_CNT_MSG.off) = regWord s (b + STY_CNT_MSG.off) + 1
        ∧ (∀ a, a ≠ b + STY_CNT_MSG.off → regWord t a = regWord s a) ∧ t.mem = s.mem ∧ t.cores = s.cores
        ∧ t.outbox = s.outbox)
    ∧ (∀ own p v f, styFresh s d.val m.step = true → (getSty s d.val).own = some own → (getSty s d.val).sent = false →
      indexOf (· == d.val) (styDies s d.val) = some p → p ≠ 0 →
      styCombine ((getSty s d.val).parts ++ [m]) false (treeKids (styDies s d.val).length p) (own, Flags.none) = some (v, f) →
      ∃ t, exec (.styMessage d m) s = .next t
        ∧ t.outbox = s.outbox ++ [.steelyard false ((styDies s d.val).getD (treeParent p) 0)
            (styMsgOf m.step.toNat false p v).1]
        ∧ getSty t d.val = { getSty s d.val with parts := (getSty s d.val).parts ++ [m], sent := true }
        ∧ regWord t (b + STY_CNT_MSG.off) = regWord s (b + STY_CNT_MSG.off) + 1
        ∧ (∀ y, y < 4 → (regWord t b).getLsbD y
            = ((regWord s b).getLsbD y || (f.or (styMsgOf m.step.toNat false p v).2).nibble.testBit y))
        ∧ t.mem = s.mem ∧ t.cores = s.cores)
    ∧ (∀ own v f total g x clip, styFresh s d.val m.step = true → (getSty s d.val).own = some own →
      (getSty s d.val).sent = false → indexOf (· == d.val) (styDies s d.val) = some 0 →
      indexOf (· == lmod s d.val) (styMods s d.val) = some 0 →
      styCombine ((getSty s d.val).parts ++ [m]) false (treeKids (styDies s d.val).length 0) (own, Flags.none) = some (v, f) →
      styCombine ((getSty s d.val).parts ++ [m]) true (treeKids (styMods s d.val).length 0) (v, f) = some (total, g) →
      x = styMsgOf m.step.toNat true 0 total →
      clip = clipOf (rf s b STY_MAXNORM_M)
        (if x.1.hi.toNat % 32768 < 0x7F80 ∨ total.isNan = true then total else .inf false) →
      ∃ t, exec (.styMessage d m) s = .next t
        ∧ rf t b STY_CLIP_STEP = m.step.toNat ∧ rf t b STY_CLIP_CLIP = clip.1 % 2 ^ 16
        ∧ rf t b STY_SUM_SUMH = x.1.hi.toNat ∧ rf t b STY_SUM_SUML = x.1.lo.toNat
        ∧ rf t b STY_STATUS_NONFINITE = b2n clip.2.1 ∧ rf t b STY_STATUS_CLIPVALID = 1
        ∧ ∀ y, y < 4 → (regWord t b).getLsbD y
            = ((regWord s b).getLsbD y || ((g.or x.2).or clip.2.2).nibble.testBit y))
    ∧ (styFresh s d.val w.step = true → UnitLands (fencePermits s d.val) s d.val 0 (regWord s (b + 0x28)) 8 →
      ∃ t l, exec (.styBroadcast d w) s = .next t
        ∧ Stored s t [at_ (regWord s (b + 0x28))
            (leBytes 8 (w.step.toNat * 2 ^ 32 + b2n w.nonfinite * 65536 + w.clip.toNat))]
        ∧ t.outbox = s.outbox ++ l
        ∧ (∀ x ∈ l, ∃ k, x = .steelyardDown false ((styDies s d.val).getD k 0) w
            ∨ x = .steelyardDown true ((styMods s d.val).getD k 0) w)
        ∧ CoresButIbuf s t)

/-! The close of a step (R272, R346-R366). -/

/-- A die closes once its cores are DONE, its stash accounts empty, its queues balanced and no entry of its exchange has failed:
the live record takes PHASE 5 and the sums, and the whole checkpoint slot of the step's parity is written; a die whose cores have
ended and that cannot close fails the step (R272, R289, R304, R352, R353). At the owner a record that is not acknowledged is
taken back, a STEP_BEGIN that waits for it is answered and a step whose CLOSE record it is does not close; at the guardian an
unacknowledged write, or a fill that it does not answer, loses the guardian (R346, R365, R376). -/
def Obligations.DiesCloseFailOrTimeOut : Prop :=
  (∀ (s : State) (d : Die) (g : Nat) (x : StallSt) (step : Nat), dieOk s d.val = true → stallOf s d.val = some (g, x) →
     x.openStep = some step → (getDie s d.val).closed = false → (getDie s d.val).failed = false →
     (∀ u r qs hs m live img, coresEnded s d.val (· == stDONE) = true → stashEmpty s d.val = true →
       exchangeFailed s d.val = false → s.upsets = [] →
       ledgerRead s x d.val = (u, some (r, qs, hs, m)) → hs.all headerBalanced = true →
       live = putAt (putAt r 36 (leBytes 2 5)) 64 (ledgerSums s d.val) → img = ckptImage s d.val step live qs hs m →
       img.length ≤ 2 ^ 20 → deadIn s d.val (jobLedger x) 192 = none → deadIn s d.val (ckptAt x step) (2 ^ 20) = none →
       ∃ t, exec (.dieClose d) s = .next t
         ∧ Stored s t [(memAt d.val (jobLedger x), live), (memAt d.val (ckptAt x step), wholeSlot img)]
         ∧ getDie t d.val = { getDie s d.val with closed := true }
         ∧ (∀ e : Die, e ≠ d → getDie t e.val = getDie s e.val)
         ∧ (∀ a, ¬ TrafficReg a → regWord t a = regWord s a) ∧ CoresButIbuf s t ∧ t.torter = s.torter)
     ∧ ((coresEnded s d.val (· == stDONE) = false ∨ stashEmpty s d.val = false ∨ exchangeFailed s d.val = true) →
       exec (.dieClose d) s = .next s)
     ∧ (coresEnded s d.val (fun v => v == stDONE || v == stFAULTED) = true → closable s x d.val = false →
       ∃ t, exec (.dieStepFailed d) s = .next t ∧ getDie t d.val = { getDie s d.val with failed := true }
         ∧ (getStall t g).map (·.enders) = (getStall s g).map (fun _ => [])
         ∧ t.mem = s.mem ∧ t.cores = s.cores
         ∧ ((∀ y, getStall s g = some y → y.enders = []) → (∀ p < 18, pathReady s p = false) →
           ∀ a, regWord t a = regWord s a))
     ∧ ((coresEnded s d.val (fun v => v == stDONE || v == stFAULTED) = false ∨ closable s x d.val = true) →
       exec (.dieStepFailed d) s = .next s))
  ∧ (∀ (s : State) (g : Fin 256) (x : StallSt), getStall s g.val = some x →
       (unitStatuses s (unitTally g.val) ≠ none → (∀ w ∈ x.append, w.fresh = none) →
         exec (.tallyAckTimeout g true) s = .next s)
       ∧ (∀ kind o n, (unitStatuses s (unitTally g.val) = none ∨ ∃ w ∈ x.append, w.fresh ≠ none) →
         x.lastAppend = some (kind, o, n) →
         (∀ w, kind = tkBEGIN → x.append = some w →
           ∃ t u, exec (.tallyAckTimeout g true) s = .next t ∧ t = answer u w.path.val scTALLY_WRITE_FAILED []
             ∧ getStall u g.val = some { x with
                 append := none, busy := none, lastAppend := none, serial := x.serial - 1, tallyPos := o
                 records := x.records.filter fun r => r.2.2.1 != o || r.2.2.2 != n }
             ∧ (∀ q ∈ u.asked, q.sunit ≠ unitTally g.val) ∧ u.mem = s.mem ∧ u.regs = s.regs ∧ u.cores = s.cores
             ∧ ∀ k : Fin 256, k ≠ g → getStall u k.val = getStall s k.val)
         ∧ (kind = tkCLOSE → x.closing.isSome = true →
           ∃ t, exec (.tallyAckTimeout g true) s = .next t
             ∧ getStall t g.val = some { x with
                 closing := none, enders := [], lastAppend := none, serial := x.serial - 1, tallyPos := o
                 records := x.records.filter fun r => r.2.2.1 != o || r.2.2.2 != n }
             ∧ (getDie t ((stallDies s x).headD 0)).failed = true ∧ t.mem = s.mem ∧ t.cores = s.cores)
         ∧ (kind ≠ tkBEGIN → kind ≠ tkCLOSE →
           ∃ t, exec (.tallyAckTimeout g true) s = .next t
             ∧ getStall t g.val = some { x with
                 lastAppend := none, serial := x.serial - 1, tallyPos := o
                 records := x.records.filter fun r => r.2.2.1 != o || r.2.2.2 != n }
             ∧ (∀ q ∈ t.asked, q.sunit ≠ unitTally g.val) ∧ t.mem = s.mem ∧ t.regs = s.regs ∧ t.cores = s.cores))
       ∧ (unitStatuses s (unitTally g.val) ≠ none → unitStatuses s unitFill ≠ none → s.torter.assigning = none →
         exec (.tallyAckTimeout g false) s = .next s)
       ∧ (∀ m, (unitStatuses s (unitTally g.val) = none ∨ unitStatuses s unitFill = none) → s.torter.guardian = some m →
         ∃ t u, exec (.tallyAckTimeout g false) s = .next t ∧ t = raiseNotice u 0 0 m.toNat 0 0 3 6
           ∧ u.torter.guardian = none ∧ u.torter.sharedFeed = false
           ∧ (∀ q ∈ u.asked, q.sunit ≠ unitTally g.val ∧ q.sunit ≠ unitFill) ∧ u.mem = s.mem ∧ u.regs = s.regs
           ∧ u.cores = s.cores)
       ∧ ∀ m, unitStatuses s (unitTally g.val) ≠ none → unitStatuses s unitFill ≠ none → s.torter.assigning = some m →
         unitStatuses s unitAssign = none →
         ∃ t, exec (.tallyAckTimeout g false) s = .next t ∧ t.torter.guardian = none ∧ t.torter.assigning = none)

/-- STEP_CLOSE closes a step once every die has closed and no entry of an exchange has failed: on the lead of a stall without a
guardian and outside a replay, the result holds the module's digest, the step's digest and the loss pair, the step's digest is
sent to the other modules, and every waiting STEP_END is answered (R304, R355, R356, R366, R407). -/
def Obligations.StepsCloseWithTheirDigests : Prop :=
  ∀ (s : State) (g : Fin 256) (dstep : Word) (others : List Word) (loss : BitVec 32),
    ((∀ x, getStall s g.val = some x → ∀ step, x.openStep = some step →
        (stallDies s x).all (fun d => (getDie s d).closed && !(getDie s d).failed && !exchangeFailed s d) = false) →
      exec (.stepClose g dstep others loss) s = .next s)
    ∧ ∀ x step u imgs v dmod w l, getStall s g.val = some x → x.openStep = some step →
      (stallDies s x).all (fun d => (getDie s d).closed && !(getDie s d).failed && !exchangeFailed s d) = true →
      x.closing = none → x.replaying = false → x.restoring = none → x.winFailed = [] → x.period = 0 → step % 64 ≠ 0 →
      (∀ m ∈ x.methods, m = 2) → s.torter.guardian = none → s.torter.assigning = none →
      (∀ q ∈ s.asked, q.sunit ≠ unitTally g.val) → s.upsets = [] → isOwn s (leadMod x) = true → roomFor x 128 = true →
      (winRange s (jobTallyWin x + placeRecord x 128) 128).isSome = true →
      deadIn s (jobTallyDie x) (jobTallyBase x + placeRecord x 128) 128 = none →
      ckptImages x step s (stallDies s x) = (u, some imgs) → moduleDigest u x step imgs = (v, some dmod) →
      lossPair v x loss = (w, some l) →
      ∃ t y, exec (.stepClose g dstep others loss) s = .next t ∧ getStall t g.val = some y
        ∧ y.last = some step ∧ y.openStep = none ∧ y.closing = none ∧ y.mode = .job ∧ y.enders = []
        ∧ y.closes.head? = some ⟨step, l, stallDigest s x step l dmod others, dmod, 0, stepNonfinite s x step, none⟩
        ∧ (manyMods x = true → .stepDigest g.val (stallDigest s x step l dmod others) l ∈ t.outbox)
        ∧ (x.enders = [] → (∀ p < 18, pathReady s p = false) → ∀ a, ¬ TrafficReg a → regWord t a = regWord s a)

/-! Command paths (R386-R409). -/

/-- A command executes only where its path holds a packet of its opcode, no stall turns it away and nothing it waits for is in
progress; its reply repeats the packet's fields and leaves on the path (R389, R393, R396, R397, R408, R472). -/
def Obligations.CommandsExecuteOnTheirPath : Prop :=
  (∀ (i : Instr) (p : Fin 18) (op : Nat) (s : State), commandOf i = some (p, op) →
    ((∀ k, (getPath s p.val).current = some k → k.opcode.toNat ≠ op) → exec i s = .next s)
    ∧ ∀ k, (getPath s p.val).current = some k → k.opcode.toNat = op →
      (∀ st, stallCheck s k = some st → exec i s = .next (answer s p.val st []))
      ∧ (stallCheck s k = none → heldBack s p k = true → exec i s = .next s))
  ∧ ∀ (s : State) (p : Fin 18) (k : Pkt) (st : Nat) (data : List Byte) (t : State) (r : Reply),
    (getPath s p.val).current = some k → (getPath s p.val).accepted = [] →
    (∀ q : Fin 18, q ≠ p → pathReady s q.val = false) → t = answer s p.val st data → r = mkReply s k st data →
    r.tag = k.tag ∧ r.seq = k.seq ∧ r.opcode = k.opcode ∧ r.stall = k.stall ∧ r.status.toNat = st % 65536 ∧ r.data = data
    ∧ (getPath t p.val).current = none
    ∧ (p.val = 16 → t.outbox = s.outbox ++ [.datagram r.sender (replyBytes r false)])
    ∧ (p.val = 17 → (getPath t 17).replies = (getPath s 17).replies ++ [r])
    ∧ (p.val < 16 → queueOn s p.val = true → (getRing s p.val).discard = false →
        (getPath t p.val).replies = (getPath s p.val).replies ++ [r])
    ∧ (∀ q : Fin 18, q ≠ p → getPath t q.val = getPath s q.val)
    ∧ t.mem = s.mem ∧ t.cores = s.cores ∧ t.torter.stalls = s.torter.stalls

/-- PWR_QUERY replies with PWR_STATUS and DVFS_STATUS of each die in ascending order, a die that comes out of Sleep being in Run
once its pads are released, and with the domains that are powered; it changes nothing (R430, R433). -/
def Obligations.PowerQueryRepliesForEveryDie : Prop :=
  ∀ (s : State) (p : Fin 18) (k : Pkt), Takes s p k 0x0501 → Answers s (.pwrQuery p) p k s 0
    (((List.range (ndie s)).map fun d =>
        wordBytes (fset (regRead s (pwrBlk d + 0x18)) PWR_STATUS_STATE (reportedState s d))
          ++ wordBytes (regRead s (pwrBlk d + 0x38))).flatten
      ++ leBytes 16 ((List.range 100).foldl (fun n j => if domPowered s j then n + 2 ^ j else n) 0))

/-- The queries reply with what they ask for and change nothing, but for the time that TELEM_READ reads, which goes on by a free
amount (log 12) (R342, R344, R372, R399, R401, R434, R437, R448, R452). -/
def Obligations.QueriesReply : Prop :=
  ∀ (s : State) (p : Fin 18) (k : Pkt),
    (Takes s p k 0x0000 → Answers s (.discover p) p k s 0 (discoverBytes s))
    ∧ (Takes s p k 0x0001 → Answers s (.echo p) p k s 0 k.params)
    ∧ (∀ x, Takes s p k 0x0106 → getStall s k.stall.toNat = some x → Answers s (.stallQuery p) p k s 0
        (leBytes 8 (match x.mode with
          | .formed => 0
          | .job => 1
          | .stepOpen => 2
          | .held => 3) ++ leBytes 8 (x.last.getD 0) ++ leBytes 8 (x.openStep.getD 0)
          ++ leBytes 8 (((List.range 512).filter (hasMod x)).length
            * ((List.range 36).filter fun d => x.dies.getLsbD d).length)))
    ∧ (∀ x, Takes s p k 0x0302 → getStall s k.stall.toNat = some x → x.job ≠ [] → Answers s (.stepQuery p) p k s 0
        (((stallDies s x).map fun d => leBytes 2 d ++ peek s d (leAt x.job 32 8 + 36) 2 ++ peek s d (leAt x.job 32 8 + 16) 8
          ++ [0, 0, 0, 0]).flatten))
    ∧ (Takes s p k 0x0404 → Answers s (.fillQuery p) p k s 0 (leBytes 8 (fillRemaining s) ++ leBytes 8 (b2n s.torter.fill.isSome)))
    ∧ (∀ q, Takes s p k 0x0600 → leAt k.params 32 1 ≠ 0 → q = quoteBody s (slice k.params 0 32) (leAt k.params 32 1) →
        Answers s (.attest p) p k s 0 (q ++ slice (Config.mlDsaSign s.secure.seed (ctxName ++ ctxQuote) q) 0 3309))
    ∧ (∀ b, Takes s p k 0x0601 → 1 ≤ leAt k.params 8 4 → leAt k.params 8 4 ≤ 4064 →
        ((leAt k.params 0 4 = 0 ∧ b = Config.certChain) ∨ (leAt k.params 0 4 = 15 ∧ b = logBytes s)) →
        Answers s (.certRead p) p k s 0 ((b.drop (leAt k.params 4 4)).take (leAt k.params 8 4)))
    ∧ (∀ e, Takes s p k 0x0700 → (s.torter.notices.find? fun x => x.fid == leWord (slice k.params 0 8)) = some e →
        Answers s (.faultQuery p) p k s 0
          (leBytes 4 e.total ++ leBytes 4 (b2n (settled s e)) ++ noticeBytes e e.total))
    ∧ (Takes s p k 0x0701 → (∀ j < 128, (leAt k.params 0 16).testBit j = true → domExists s j = true) →
        Answers s (.telemRead p) p k (tickNs s) 0
          (((List.range 100).filter fun j => (leAt k.params 0 16).testBit j).map (telemRecord (tickNs s))).flatten)
    ∧ (∀ a n, Takes s p k 0x0702 → a = leWord (slice k.params 0 8) → n = leAt k.params 8 4 → addrMod a = lmod s 0 →
        dieOk s (addrDie a) = true → addrLocal a % 8 = 0 → 1 ≤ n → n ≤ 512 →
        (∀ j < n, isRegister (addrLocal a + 8 * j)) → Answers s (.counterRead p) p k s 0
          ((List.range n).map fun j => wordBytes (regRead s (dieAddr (addrDie a) + addrLocal a + 8 * j))).flatten)
    ∧ (Takes s p k 0x0802 → Answers s (.fwQuery p) p k s 0
        (bankBytes (getBank s 0) ++ bankBytes (getBank s 1) ++ leBytes 4 s.secure.counter.toNat ++ leBytes 1 s.secure.running))
    ∧ (Takes s p k 0x0900 → dieOk s (leAt k.params 0 1) = true → Answers s (.linkQuery p) p k s
        (if (getLink s (leAt k.params 0 1)).incompatible then scINCOMPATIBLE_REVISION else 0)
        (([0x0, 0x10, 0x18, 0x20, 0x28].map fun o => wordBytes (regRead s (linkBlk (leAt k.params 0 1) + o))).flatten))

/-- The stall commands: a stall is formed with its dies' registers set, dissolved with them cleared, given a job, relieved of it,
held with its step stopped, and released (R370, R397, R402-R405). -/
def Obligations.StallsAreFormedHeldAndReleased : Prop :=
  ∀ (s : State) (p : Fin 18) (k : Pkt) (g : Nat), g = k.stall.toNat →
    (∀ x, Takes s p k 0x0100 → formRefusal s g k.params = none → x = stallOfParams k.params →
      ∃ u, Answers s (.stallForm p) p k u 0
          (leBytes 4 (stallRanks x) ++ leBytes 4 (rankOf x (lmod s 0) ((stallDies s x).headD 0)) ++ leBytes 8 (leadMod x))
        ∧ getStall u g = some x ∧ u = { s with regs := u.regs, torter := u.torter }
        ∧ (∀ d ∈ stallDies s x, rf u (dieBlk d) DIE_STALL_STALL = g % 256 ∧ rf u (dieBlk d) DIE_STALL_MEMBER = 1
          ∧ regWord u (dieBlk d + 0x28) = x.dies ∧ ∀ j < 8, regWord u (dieBlk d + 0x30 + 8 * j) = wd x.mods j)
        ∧ ∀ a, (∀ d ∈ stallDies s x, ¬ (dieBlk d + 0x18 ≤ a ∧ a ≤ dieBlk d + 0x68)) → regWord u a = regWord s a)
    ∧ (∀ st, Takes s p k 0x0100 → formRefusal s g k.params = some st → Answers s (.stallForm p) p k s st [])
    ∧ (∀ x, Takes s p k 0x0101 → getStall s g = some x → (x.openStep = none ∨ x.mode = .held) →
      ∃ u, Answers s (.stallDissolve p) p k u 0 [] ∧ getStall u g = none
        ∧ (∀ d ∈ stallDies s x, ∀ j < 11, regWord u (dieBlk d + 0x18 + 8 * j) = 0)
        ∧ (∀ d ∈ stallDies s x, (getDie u d).loaded = [] ∧ (getDie u d).started = []) ∧ u.mem = s.mem)
    ∧ (∀ x, Takes s p k 0x0102 → getStall s g = some x → jobRefusal s x k.params = none →
      ∃ u y, Answers s (.jobConfig p) p k u 0 [] ∧ getStall u g = some y ∧ y.job = k.params ∧ y.mode = .job
        ∧ y.period = (if s.torter.sharedFeed = true ∧ leAt k.params 48 4 = 0 then 16 else leAt k.params 48 4)
        ∧ y.last = none ∧ y.openStep = none ∧ (s.torter.sharedFeed = false → y.serial = 1)
        ∧ y.dies = x.dies ∧ y.mods = x.mods ∧ y.chain = x.chain
        ∧ (∀ d ∈ stallDies s x, regWord u (dieBlk d + 0x20) = BitVec.ofNat 64 (leAt k.params 0 8)
          ∧ rf u (styBlk d) STY_MAXNORM_M = leAt k.params 104 2))
    ∧ (∀ x st, Takes s p k 0x0102 → getStall s g = some x → jobRefusal s x k.params = some st →
      Answers s (.jobConfig p) p k s st [])
    ∧ (∀ x, Takes s p k 0x0103 → getStall s g = some x → (x.openStep = none ∨ x.mode = .held) → x.job ≠ [] →
      ∃ u, Answers s (.jobEnd p) p k u 0 (leBytes 8 (x.last.getD 0))
        ∧ getStall u g = some { StallSt.formed x.algrev x.dies x.mods with chain := x.chain }
        ∧ (∀ d ∈ stallDies s x, regWord u (dieBlk d + 0x20) = 0)
        ∧ (∀ a, (∀ d ∈ stallDies s x, a ≠ dieBlk d + 0x20) → regWord u a = regWord s a)
        ∧ u = { s with regs := u.regs, torter := u.torter })
    ∧ (∀ x was, Takes s p k 0x0104 → getStall s g = some x → x.enders = [] → (x.busy = none ∨ x.busy = some p) →
      was = (if x.openStep.isSome = true then x.openStep
        else if x.mode ≠ .held ∧ unitStatuses s (unitTally g) ≠ none then x.append.map (·.step) else none) →
      ∃ u y, Answers s (.stallHold p) p k u 0 (leBytes 8 (x.last.getD 0) ++ leBytes 8 (b2n was.isSome))
        ∧ getStall u g = some y ∧ y.mode = .held ∧ y.openStep = none ∧ y.append = none ∧ y.last = x.last
        ∧ y.restored = false ∧ y.lastAtHold = (if x.mode = .held then x.lastAtHold else x.last)
        ∧ (y.openAtHold = true ↔ (was.isSome = true ∨ (x.mode = .held ∧ x.openAtHold = true)))
        ∧ ∀ d ∈ stallDies s x, (getDie u d).started = [] ∧ getRed u d = RedSt.reset ∧ getSty u d = StySt.reset)
    ∧ (∀ x, Takes s p k 0x0105 → getStall s g = some x → x.mode = .held → x.openStep = none →
      (x.openAtHold = false ∨ (x.restored = true ∧ x.last = x.stallLast)) →
      ∃ u, Answers s (.stallRelease p) p k u 0 []
        ∧ getStall u g = some { x with
            mode := if x.job = [] then .formed else .job, openAtHold := false, restored := false, restoring := none
            stallLast := none, spares := [] }
        ∧ u = { s with torter := u.torter })
    ∧ (∀ x, Takes s p k 0x0105 → getStall s g = some x →
      (x.mode ≠ .held ∨ x.openStep.isSome = true ∨ (x.openAtHold = true ∧ (x.restored = false ∨ x.last ≠ x.stallLast))) →
      Answers s (.stallRelease p) p k s scINVALID_PARAM [])

/-- The commands that prepare a step on the module: the window map, programs with CORE_PC, data copied either way, the exchange
table, the chain table, the protection table, and released snapshots (R253, R301, R357, R361, R383, R403, R446). -/
def Obligations.StepsArePrepared : Prop :=
  ∀ (s : State) (p : Fin 18) (k : Pkt) (b : List Byte), b = k.params →
    (Takes s p k 0x0200 → (leWords b).all (winEntryOk s) = true → distinctEntries (leWords b) = true →
      (windowBusy s = true → ∃ t, exec (.windowMap p) s = .next t ∧ t = { s with torter := t.torter }
        ∧ t.torter.window = s.torter.window ∧ (getPath t p.val).current = some k)
      ∧ (windowBusy s = false → ∃ u, Answers s (.windowMap p) p k u 0 [] ∧ (∀ j < 256, tget 0 u.torter.window j = wd (leWords b) j)
        ∧ u = { s with torter := u.torter, secure := u.secure }))
    ∧ (∀ x img v dies cores coff, Takes s p k 0x0201 → getStall s k.stall.toNat = some x →
      woffOk s (leAt b 0 8) (leAt b 8 4) = true → coff = leAt b 12 4 → coff % 16 = 0 → coff + leAt b 8 4 ≤ 0x180000 →
      dies = leAt b 16 8 → (∀ d < 36, dies.testBit d = true → x.dies.getLsbD d = true) → x.openStep = none →
      winRead s (leAt b 0 8) (leAt b 8 4) = (v, some img) → cores = leAt b 24 32 →
      ∃ u, Answers s (.progLoad p) p k u 0 []
        ∧ (∀ c : CoreId, dieOk s c.die.val = true → dies.testBit c.die.val = true → cores.testBit c.n.val = true →
          peek u c.die.val (coreMemBase + c.n.val * 0x200000 + coff) img.length = img
          ∧ pcOf u c.die.val c.n.val = coff ∧ c.n ∈ (getDie u c.die.val).loaded)
        ∧ (∀ c : CoreId, coreAt u c = { coreAt s c with ibuf := (coreAt u c).ibuf })
        ∧ (s.upsets = [] → ∀ a, ¬ TrafficReg a → (∀ c : CoreId, a ≠ slotOf c + CORE_PC_PC.off) → regWord u a = regWord s a))
    ∧ (∀ x ps d l, Takes s p k 0x0202 → getStall s k.stall.toNat = some x →
      winRange s (leAt b 8 8) (leAt b 24 8) = some ps → leAt b 8 8 % 4096 = 0 →
      stallArea s x (leWord (slice b 16 8)) (leAt b 24 8) = .at d l →
      Answers s (.dataCopy p) p k
        (if leAt b 0 8 = 0 then copyAll s ps [(d, l, leAt b 24 8)] else copyAll s [(d, l, leAt b 24 8)] ps) 0 [])
    ∧ (∀ x tbl v d, Takes s p k 0x0204 → getStall s k.stall.toNat = some x → d = leAt b 0 1 →
      woffOk s (leAt b 8 8) (leAt b 24 4) = true → dieOk s d = true → x.dies.getLsbD d = true → x.openStep = none →
      homeOf (leAt b 16 8) = some .hbm → firstBad (leAt b 16 8) (leAt b 24 4) = none → leAt b 16 8 % 64 = 0 →
      deadIn s d (leAt b 16 8) (leAt b 24 4) = none →
      winRead s (leAt b 8 8) (leAt b 24 4) = (v, some tbl) → exchOk tbl = true →
      ∃ u, Answers s (.exchSet p) p k u 0 [] ∧ peek u d (leAt b 16 8) tbl.length = tbl
        ∧ MemoryBut s u (memAt d (leAt b 16 8)) tbl.length ∧ redTable u d = globalAddr s d (leAt b 16 8)
        ∧ (s.upsets = [] → ∀ a, ¬ TrafficReg a → a ≠ redBlk d + 0x10 → regWord u a = regWord s a))
    ∧ (∀ x tbl v, Takes s p k 0x0203 → getStall s k.stall.toNat = some x → woffOk s (leAt b 0 8) (leAt b 8 4) = true →
      x.openStep = none → winRead s (leAt b 0 8) (leAt b 8 4) = (v, some tbl) → chainOk x tbl = true →
      ∃ u, Answers s (.chainSet p) p k u 0 [] ∧ getStall u k.stall.toNat = some { x with chain := tbl } ∧ u.mem = s.mem)
    ∧ (∀ x tbl v bs, Takes s p k 0x0400 → getStall s k.stall.toNat = some x →
      woffOk s (leAt b 0 8) (64 * leAt b 8 4) = true → winRead s (leAt b 0 8) (64 * leAt b 8 4) = (v, some bs) →
      tbl = chunks 8 (64 * leAt b 8 4) (leWords bs) → tableOk s x tbl = true →
      (s.torter.guardian = none ∨ guardHolds v (x.protecting tbl) 0 = true) →
      ∃ u y, Answers s (.protectSet p) p k u 0 [] ∧ getStall u k.stall.toNat = some y
        ∧ y.protect = (coverStall v k.stall.toNat (x.protecting tbl)).protect
        ∧ y.methods = tbl.map (fun w => if extMethod w = 1 then 3 else 2)
        ∧ y.last = x.last ∧ y.openStep = x.openStep ∧ y.job = x.job)
    ∧ (∀ x, Takes s p k 0x0402 → getStall s k.stall.toNat = some x →
      (∃ a ∈ x.snaps, a.step = some (leAt b 0 8) ∧ a.complete = true) →
      ∃ u, Answers s (.snapRelease p) p k u 0 []
        ∧ getStall u k.stall.toNat = some { x with
            snaps := x.snaps.map fun a => if a.step = some (leAt b 0 8) then { a with released := true } else a }
        ∧ u = { s with torter := u.torter })

/-- STEP_BEGIN is rejected without effect with STEP_BUSY while an earlier step has not closed, and with INVALID_PARAM when its
step number is not one more than the last closed step, which a recovery sets back to the step before the one it replays
(R271). -/
def Obligations.StepBeginIsRejected : Prop :=
  ∀ (s : State) (p : Fin 18) (k : Pkt) (x : StallSt), getStall s k.stall.toNat = some x → Takes s p k 0x0300 →
    x.append = none →
    (x.openStep.isSome = true → Answers s (.stepBegin p) p k s scSTEP_BUSY [])
    ∧ ∀ v, x.openStep = none → x.last = some v → leAt k.params 0 8 ≠ v + 1 →
      Answers s (.stepBegin p) p k s scINVALID_PARAM []

/-- A step begins once its record is complete and every core of the stall has ended: each die is given the step number, its
participants and its started cores; STEP_END waits for the open step, and returns the last closed step's result, or that of a
replayed step that did not match (R270, R271, R374, R406, R407). -/
def Obligations.StepsBeginAndEnd : Prop :=
  ∀ (s : State) (p : Fin 18) (k : Pkt) (x : StallSt) (n : Nat), getStall s k.stall.toNat = some x → n = leAt k.params 0 8 →
    (Takes s p k 0x0300 → x.append = none →
      (x.openStep = none → x.job ≠ [] → k.flags.getLsbD 1 = false → stepNumberOk x n = true →
        coverOk s k.stall.toNat x = true → x.mode ≠ .held → s.torter.guardian = none → s.torter.assigning = none →
        (∀ o m, o + m ≤ jobTallyBytes x → deadIn s (jobTallyDie x) (jobTallyBase x + o) m = none) → (∀ q ∈ s.asked, q.sunit ≠ unitTally k.stall.toNat) →
        ∀ v inputs np plans, stepInputs s k.params = (v, some inputs) → findRecord x tkBEGIN n = none →
        stepPlans x n (leAt k.params 24 4) inputs = some (np, plans) →
        roomFor x (64 + up64 (beginBody k.params inputs np plans).length) = true →
        (stallDies s x).all (dieReady s) = true →
        ∃ u y, Answers s (.stepBegin p) p k u 0 [] ∧ getStall u k.stall.toNat = some y
          ∧ y.openStep = some n ∧ y.mode = .stepOpen ∧ y.append = none ∧ y.replaying = false ∧ y.serial = x.serial + 1
          ∧ (∀ d ∈ stallDies s x, (∀ c < 256, regWord u (coreBlk d c + 0x50) = BitVec.ofNat 64 n)
            ∧ (getDie u d).started = (getDie s d).loaded ∧ (getDie u d).participants = (getDie s d).loaded
            ∧ (getDie u d).closed = false ∧ (getDie u d).failed = false ∧ getRed u d = RedSt.reset
            ∧ getSty u d = StySt.reset
            ∧ ∀ c ∈ (getDie s d).loaded, (getCore s d c.val).orphans = [] → coreState u d c.val = stRUN)))
    ∧ (Takes s p k 0x0301 →
      (x.openStep = some n → (∀ d ∈ stallDies s x, (getDie s d).failed = false) →
        ∃ t, exec (.stepEnd p) s = .next t
          ∧ getStall t k.stall.toNat = some { x with enders := (x.enders.filter fun e => e.1 != p) ++ [(p, n)] }
          ∧ t = { s with torter := t.torter } ∧ (getPath t p.val).current = some k)
      ∧ (x.openStep = some n → (∃ d ∈ stallDies s x, (getDie s d).failed = true) →
        Answers s (.stepEnd p) p k s scSTEP_INCOMPLETE [])
      ∧ (∀ c, x.openStep ≠ some n → (x.closes.find? fun c => c.step == n) = some c →
        (x.last = some n ∨ c.mismatch.isSome = true) →
        Answers s (.stepEnd p) p k s (if c.mismatch.isSome then scREPLAY_MISMATCH else 0) (resultBytes c))
      ∧ (x.openStep ≠ some n →
        (∀ c, (x.closes.find? fun c => c.step == n) = some c → x.last ≠ some n ∧ c.mismatch = none) →
        Answers s (.stepEnd p) p k s scINVALID_PARAM []))

/-- Recovery and guardians: RESTORE to the snapshot of an earlier step, FILL_START and FILL_COMPLETE, MIRROR_ASSIGN on the ward,
on the guardian and elsewhere (R363-R365, R367, R372, R373). -/
def Obligations.RecoveryBringsBackAStep : Prop :=
  ∀ (s : State) (p : Fin 18) (k : Pkt) (g b : Nat), g = k.stall.toNat →
    (∀ x y v i u imgs, Takes s p k 0x0405 → b = leAt k.params 0 8 → getStall s g = some x → x.mode = .held → x.job ≠ [] →
      x.openStep = none → lastOfStall s g x = some v → b + 1 < v →
      indexOf (fun a : SnapSlot => a.step == some b && a.complete) x.snaps = some i → y = { x with stallLast := some v } →
      restoreWindow (setStall s g (some y)) g (jobSnapWin x i) b y = (u, .ok imgs) →
      ∃ w z, Answers s (.restore p) p k w 0 [] ∧ w = restoreDone u g b v ∧ getStall w g = some z
        ∧ z.last = some b ∧ z.restored = true ∧ z.restoring = some b ∧ z.replayTo = v ∧ z.stallLast = some v
        ∧ z.proved = false)
    ∧ (∀ x, Takes s p k 0x0405 → getStall s g = some x → (x.mode ≠ .held ∨ x.job = [] ∨ x.openStep.isSome = true) →
      Answers s (.restore p) p k s scINVALID_PARAM [])
    ∧ (∀ x, Takes s p k 0x0403 → getStall s g = some x → s.torter.fill = none → fillParamsOk s g x k.params = true →
      x.job ≠ [] → s.torter.guardian = none → x.busy = none →
      ∃ t y, exec (.fillStart p) s = .next t ∧ t.torter.fill = some ⟨lmod s 0, g, leAt k.params 8 8, p⟩
        ∧ getStall t g = some y ∧ y.mode = .held ∧ y.openAtHold = true ∧ y.lastAtHold = x.last ∧ y.busy = some p
        ∧ y.stallLast = none ∧ y.spares = [lmod s 0] ∧ (getPath t p.val).current = some k ∧ t.mem = s.mem)
    ∧ (s.torter.fill = none → exec .fillComplete s = .next s)
    ∧ (∀ f x, s.torter.fill = some f → unitStatuses s unitFill ≠ none → getStall s f.stall = some x →
      (fillTally s f.stall x = none →
        ∃ t w, exec .fillComplete s = .next t ∧ t = answer w f.path.val scTALLY_CORRUPT [] ∧ w.torter.fill = none
          ∧ ∀ q ∈ w.asked, q.sunit ≠ unitFill)
      ∧ ∀ area top y v, fillTally s f.stall x = some area →
        top = ((x.withTally area f.step).closes.foldl (fun m c => max m c.step) 0) →
        y = { x.withTally area f.step with lastAtHold := some top } →
        v = max f.step ((lastOfStall s f.stall y).getD 0) →
        (∀ u, fillState s f.stall f.step y = (u, .failed) →
          ∃ t w, exec .fillComplete s = .next t ∧ t = answer w f.path.val scSTATE_LOST [] ∧ w.torter.fill = none
            ∧ ∀ q ∈ w.asked, q.sunit ≠ unitFill)
        ∧ ∀ u imgs, fillState s f.stall f.step y = (u, .ok imgs) → f.step ≠ v →
          ∃ t w, exec .fillComplete s = .next t ∧ t = answer w f.path.val 0 [] ∧ w.torter.fill = none
            ∧ (∃ z, getStall w f.stall = some z ∧ z.last = some f.step ∧ z.restored = true ∧ z.replayTo = v
              ∧ z.stallLast = some v ∧ z.lastAtHold = some top ∧ z.busy = none)
            ∧ ∀ q ∈ w.asked, q.sunit ≠ unitFill)
    ∧ (∀ w m, Takes s p k 0x0401 → w = leAt k.params 0 2 → m = leAt k.params 2 2 → s.torter.assigning = none →
      assignRefusal s w m (k.flags.getLsbD 0) = none →
      (isOwn s w = false → isOwn s m = true → ∃ u, Answers s (.mirrorAssign p) p k u 0 []
        ∧ u.torter = { s.torter with wards := (s.torter.wards.filter fun e => e.toNat != w) ++ [BitVec.ofNat 9 w] }
        ∧ u = { s with torter := u.torter, secure := u.secure })
      ∧ (isOwn s w = false → isOwn s m = false → ∃ u, Answers s (.mirrorAssign p) p k u 0 []
        ∧ u.torter = { s.torter with wards := s.torter.wards.filter fun e => e.toNat != w }
        ∧ u = { s with torter := u.torter, secure := u.secure })
      ∧ (isOwn s w = true → stalls s = [] → (∀ q ∈ s.asked, q.sunit ≠ unitAssign) →
        ∃ u, Answers s (.mirrorAssign p) p k u 0 [] ∧ u.torter.guardian = some (BitVec.ofNat 9 m)
          ∧ u.torter.assigning = none ∧ u.torter.sharedFeed = (feedOf s w == feedOf s m) ∧ u.mem = s.mem
          ∧ u.regs = s.regs))
    ∧ (∀ st, Takes s p k 0x0401 → s.torter.assigning = none →
      assignRefusal s (leAt k.params 0 2) (leAt k.params 2 2) (k.flags.getLsbD 0) = some st →
      Answers s (.mirrorAssign p) p k s st [])

/-! Registers, memory, sparing, the mesh (R10, R11, R175-R202). -/

/-- A register write changes the fields that its access codes let it change, and reserved encodings leave their field; one to a
unit that is gated waits for the exit of its die; BAR0 below the queue blocks is read only; a queue's bases are written only
while it is off; configuration space answers Retry Status before B4; the decoder and the MSI-X table take what is written, at the
offsets of log 153 (R10, R11, R177, R379, R386, R387, R422, R431, R441). -/
def Obligations.RegisterWritesFollowTheirAccess : Prop :=
  ∀ (s : State) (v : Word),
    (∀ (a : Nat) (p : RegAt), a % 8 = 0 → locate a = some p → byAccess p = true → dieOk s (a / 2 ^ 49) = true →
      unitGated s a = false → ∃ t, exec (.registerWrite .region a v) s = .next t ∧ FieldsWritten s t a p v)
    ∧ (∀ a, a % 8 = 0 → dieOk s (a / 2 ^ 49) = true → unitGated s a = true →
      ∃ t, exec (.registerWrite .region a v) s = .next t ∧ t = { s with regs := t.regs, dies := t.dies }
        ∧ (getPow t (a / 2 ^ 49)).held = (getPow s (a / 2 ^ 49)).held ++ [.reg a v] ∧ regWord t a = regWord s a)
    ∧ (∀ a, exec (.registerWrite .config a v) s
      = .next (if s.secure.stage < 4 then { s with outbox := s.outbox ++ [.retryStatus] } else s))
    ∧ (exec (.registerWrite .bar2 0x10 v) s
        = .next { s with attach := { s.attach with hdmBase := if s.attach.hdmCommitted then s.attach.hdmBase else v } }
      ∧ exec (.registerWrite .bar2 0x18 v) s
        = .next { s with attach := { s.attach with hdmSize := if s.attach.hdmCommitted then s.attach.hdmSize else v } })
    ∧ (∀ j, j < 128 → ∃ t, exec (.registerWrite .bar4 (8 * j) v) s = .next t ∧ t = { s with attach := t.attach }
      ∧ ∀ i, tget 0 t.attach.msix i = if i = j then v else tget 0 s.attach.msix i)
    ∧ (∀ (d : Die) (off : Nat) (p : RegAt), off % 8 = 0 → off < 0x100 → off ∉ [0x20, 0x28, 0x30] →
      locate (pwrBlk d.val + off) = some p → dieOk s d.val = true →
      ∃ t, exec (.registerWrite (.power d) off v) s = .next t ∧ FieldsWritten s t (pwrBlk d.val + off) p v)
    ∧ (∀ off, off < 0x1000 → exec (.registerWrite .bar0 off v) s = .next s)
    ∧ (∀ (q : Fin 17) (off : Nat) (p : RegAt), off ∈ [0x0, 0x8, 0x38] → locate (queueBlk q.val + off) = some p →
      (queueOn s q.val = false ∨ off = 0x38) → (off = 0 → q.val < 16) →
      ∃ t, exec (.registerWrite .bar0 (0x1000 + 0x40 * q.val + off) v) s = .next t
        ∧ FieldsWritten s t (queueBlk q.val + off) p v)
    ∧ (∀ (q : Fin 17) (off : Nat), off ∈ [0x0, 0x8] → queueOn s q.val = true →
      exec (.registerWrite .bar0 (0x1000 + 0x40 * q.val + off) v) s = .next s)
    ∧ (∀ q : Fin 17, queueOn s q.val = false → fget v Q_CFG_ENABLE = 0 →
      ∃ t, exec (.registerWrite .bar0 (0x1000 + 0x40 * q.val + 0x10) v) s = .next t
        ∧ rf t (queueBlk q.val) Q_CFG_VEC = fget v Q_CFG_VEC ∧ rf t (queueBlk q.val) Q_CFG_CPLLOG2 = fget v Q_CFG_CPLLOG2
        ∧ rf t (queueBlk q.val) Q_CFG_CMDLOG2 = fget v Q_CFG_CMDLOG2 ∧ queueOn t q.val = false
        ∧ OnlyRegs s t [queueBlk q.val + 0x10] ∧ t = { s with regs := t.regs })

/-- A request that its router lets through reads or writes its home on the module, or waits there for the exit of a die that is
below Run; one that the fence refuses is counted and changes nothing else; one to another module leaves this module's memory
alone; an uncorrectable error and a route over a down edge deliver poison (R174, R186, R189, R190, R193-R195, R198, R420). -/
def Obligations.RequestsArePerformedAtTheirHome : Prop :=
  ∀ (s : State) (r : MemReq) (t l : Nat), dieOk s r.die.val = true →
    (r.write = true → Performed s r r.data.length t l → ¬ isRegister l → routeDown s r.die.val t = false →
      deadIn s t l r.data.length = none →
      ∃ u, exec (.memoryRequest r) s = .next u ∧ Stored s u [(memAt t l, r.data)] ∧ CoresButIbuf s u ∧ RegsBut s u []
        ∧ u = { s with mem := u.mem, poison := u.poison, upsets := u.upsets, regs := u.regs, cores := u.cores })
    ∧ (r.write = false → Performed s r r.len t l → ¬ isRegister l → routeDown s r.die.val t = false → r.ecc = .clean →
      memSound s t l r.len = true →
      ∃ u, exec (.memoryRequest r) s = .next u ∧ u.outbox = s.outbox ++ [.read (peek s t l r.len) false]
        ∧ RegsBut s u [] ∧ u = { s with regs := u.regs, outbox := u.outbox })
    ∧ (r.write = false → Performed s r r.len t l → ¬ isRegister l → routeDown s r.die.val t = false →
      r.ecc = .uncorrectable → 0 < r.len → memSound s t l r.len = true →
      ∃ u, exec (.memoryRequest r) s = .next u ∧ u.outbox.getLast? = some (.read [] true)
        ∧ memAt t (unitOf l) ∈ u.poison ∧ rfb u (dieBlk t) MEM_ERR_UE = true
        ∧ regWord u (dieBlk t + CNT_UE.off) = regWord s (dieBlk t + CNT_UE.off) + 1 ∧ u.mem = s.mem ∧ u.cores = s.cores)
    ∧ (r.write = false → Performed s r r.len t l → routeDown s r.die.val t = true →
      exec (.memoryRequest r) s = .next { s with outbox := s.outbox ++ [.read [] true] })
    ∧ (∀ len, len = (if r.write then r.data.length else r.len) →
      (requestTarget s r len = .here t l → requestWaits (requestWake s r t l) r t l = true →
        ∃ u, exec (.memoryRequest r) s = .next u ∧ (getPow u t).held = (getPow s t).held ++ [.request r]
          ∧ u = { s with regs := u.regs, dies := u.dies })
      ∧ (∀ m, requestTarget s r len = .away m t l →
        ∃ u, exec (.memoryRequest r) s = .next u ∧ u.mem = s.mem ∧ u.cores = s.cores)
      ∧ (∀ a, requestTarget s r len = .unmapped a → exec (.memoryRequest r) s = .next s)
      ∧ ∀ c core, srcRouter r.src = some (c, core) → requestTarget s r len = .fenced →
        ∃ u, exec (.memoryRequest r) s = .next u
          ∧ regWord u (clBlk r.die.val c + CL_RT_CNT_FENCE.off) = regWord s (clBlk r.die.val c + CL_RT_CNT_FENCE.off) + 1
          ∧ OnlyRegs s u [clBlk r.die.val c + CL_RT_CNT_FENCE.off] ∧ u = { s with regs := u.regs })

/-- A patrol read finds what the memory's code finds and moves SCRUB_POS past an HBM burst; nothing is scrubbed with EN clear. A
spare takes its channel once its copy is done, and a row repair is logged (R195-R198, R201, R445). An edge of the mesh that
slips is recentred and counted; a flit sent again is counted; the third failed recentring in succession takes the edge down
(R185, R186, R202). -/
def Obligations.ScrubbingSparingRepairAndMeshEdges : Prop :=
  (∀ (s : State) (d : Die) (k : Fin 4) (b : Nat), dieOk s d.val = true → b = hbmBlk d.val k.val →
     (∀ (a : Word) (ecc : Ecc) (l : Nat), addrDie a = d.val → l = addrLocal a → homeOf l = some .hbm →
       rfb s (dieBlk d.val) SCRUB_CTRL_EN = true → (getPow s d.val).hbm = .running →
       ∃ t, exec (.scrubRead a ecc) s = .next t ∧ t.mem = s.mem ∧ t.cores = s.cores
         ∧ rf t (dieBlk d.val) SCRUB_POS_ADDR = (l / 64 * 64 + 64) % 0x4800000000
         ∧ (memSound s d.val (unitOf l) 64 = true →
         (ecc = .clean → t.poison = s.poison ∧ t.torter = s.torter)
         ∧ (ecc = .corrected → t.poison = s.poison ∧ rfb t (dieBlk d.val) MEM_ERR_CE = true
           ∧ regWord t (dieBlk d.val + CNT_CE.off) = regWord s (dieBlk d.val + CNT_CE.off) + 1
           ∧ regWord t (hbmBlk d.val (hbmCtl l) + HBM_CNT_CE.off) = regWord s (hbmBlk d.val (hbmCtl l) + HBM_CNT_CE.off) + 1)
         ∧ (ecc = .uncorrectable → memAt d.val (unitOf l) ∈ t.poison ∧ rfb t (dieBlk d.val) MEM_ERR_UE = true
           ∧ regWord t (dieBlk d.val + CNT_UE.off) = regWord s (dieBlk d.val + CNT_UE.off) + 1)))
     ∧ (∀ (a : Word) (ecc : Ecc), addrDie a = d.val →
       (rfb s (dieBlk d.val) SCRUB_CTRL_EN = false ∨ (getPow s d.val).hbm ≠ .running) →
       exec (.scrubRead a ecc) s = .next s)
     ∧ (∀ chan : BitVec 5, fabricRuns s d.val = true → rfb s b HBM_STATUS_SPARE_BUSY = false → rfb s b HBM_STATUS_SPARE_USED = false →
       ∃ t, exec (.hbmSpareStart d k chan) s = .next t ∧ rf t b HBM_SPARE_CHAN = chan.toNat
         ∧ rfb t b HBM_STATUS_SPARE_BUSY = true ∧ rf t b HBM_SPAREPOS_GRANULES = 0
         ∧ getHbm t d.val k.val = { getHbm s d.val k.val with copying := some chan }
         ∧ OnlyRegs s t [b, b + 8, b + 16] ∧ t = { s with regs := t.regs, hbms := t.hbms })
     ∧ (∀ chan : BitVec 5, fabricRuns s d.val = true → (rfb s b HBM_STATUS_SPARE_BUSY = true ∨ rfb s b HBM_STATUS_SPARE_USED = true) →
       ∃ t, exec (.hbmSpareStart d k chan) s = .next t ∧ OnlyRegs s t [b + 8] ∧ t = { s with regs := t.regs })
     ∧ (∀ chan, (getHbm s d.val k.val).copying = some chan →
       ∃ t, exec (.spareCopyDone d k) s = .next t ∧ rfb t b HBM_STATUS_SPARE_BUSY = false
         ∧ rfb t b HBM_STATUS_SPARE_USED = true ∧ rf t b HBM_SPAREPOS_GRANULES = 9437184
         ∧ getHbm t d.val k.val = { getHbm s d.val k.val with copying := none, spareChan := some chan }
         ∧ OnlyRegs s t [b, b + 16] ∧ t.mem = s.mem ∧ t.cores = s.cores)
     ∧ ((getHbm s d.val k.val).copying = none → exec (.spareCopyDone d k) s = .next s)
     ∧ (∀ row, ∃ t, exec (.rowRepair d k row) s = .next t
         ∧ getHbm t d.val k.val = { getHbm s d.val k.val with repairing := some row }
         ∧ regWord t (b + HBM_CNT_ROWS.off) = regWord s (b + HBM_CNT_ROWS.off) + 1 ∧ OnlyRegs s t [b + HBM_CNT_ROWS.off]
         ∧ (∃ e, t.secure.repairLog = s.secure.repairLog ++ [e] ∧ e.row = row) ∧ t.mem = s.mem ∧ t.cores = s.cores)
     ∧ ∃ t, exec (.rowRepairDone d k) s = .next t
         ∧ getHbm t d.val k.val = { getHbm s d.val k.val with repairing := none } ∧ t = { s with hbms := t.hbms })
  ∧ (∀ (s : State) (d : Die) (k : Dir) (m : Nat), dieOk s d.val = true → m = meshBlk d.val →
       (edgePresent s d.val k.val = true → edgeDown s d.val k.val = false →
         ∃ t, exec (.meshSlip d k) s = .next t ∧ (regWord t m).getLsbD k.val = true
           ∧ (∀ j < 64, j ≠ k.val → (regWord t m).getLsbD j = (regWord s m).getLsbD j)
           ∧ regWord t (m + MESH_CNT_RETRAIN.off) = regWord s (m + MESH_CNT_RETRAIN.off) + 1
           ∧ getEdge t d.val k.val = { getEdge s d.val k.val with recentring := true }
           ∧ OnlyRegs s t [m, m + MESH_CNT_RETRAIN.off] ∧ t = { s with regs := t.regs, edges := t.edges })
       ∧ (edgePresent s d.val k.val = true → ∃ t, exec (.meshFlitCrcError d k) s = .next t
           ∧ regWord t (m + MESH_CNT_RETRAIN.off) = regWord s (m + MESH_CNT_RETRAIN.off) + 1
           ∧ OnlyRegs s t [m + MESH_CNT_RETRAIN.off] ∧ t = { s with regs := t.regs })
       ∧ (edgePresent s d.val k.val = false →
         exec (.meshSlip d k) s = .next s ∧ exec (.meshFlitCrcError d k) s = .next s)
       ∧ (∀ ok, (getEdge s d.val k.val).recentring = false → exec (.meshRecentreComplete d k ok) s = .next s)
       ∧ ((getEdge s d.val k.val).recentring = true →
         (∃ t, exec (.meshRecentreComplete d k true) s = .next t ∧ getEdge t d.val k.val = ⟨false, 0⟩
           ∧ t = { s with edges := t.edges })
         ∧ ((getEdge s d.val k.val).fails < 2 → ∃ t, exec (.meshRecentreComplete d k false) s = .next t
           ∧ getEdge t d.val k.val = ⟨true, (getEdge s d.val k.val).fails + 1⟩ ∧ t = { s with edges := t.edges })
         ∧ (2 ≤ (getEdge s d.val k.val).fails → ∃ t, exec (.meshRecentreComplete d k false) s = .next t
           ∧ edgeDown t d.val k.val = true ∧ (getEdge t d.val k.val).recentring = false
           ∧ (∀ (e : Die) (j : Dir), (e, j) ≠ (d, k) → edgeDown t e.val j.val = edgeDown s e.val j.val)
           ∧ regWord t (dieBlk d.val + CNT_UE.off) = regWord s (dieBlk d.val + CNT_UE.off) + 1
           ∧ t.mem = s.mem ∧ t.cores = s.cores)))

/-! Links (R316-R344). -/

/-- A link trains phase by phase, comes up with its buffers kept for the same partner and discarded for another, and after a third
failed attempt goes down (R322, R327, R344). Negotiation agrees the highest common version and the common features, shows the
partner and what is wired wrongly, and takes the link down where no version is common; NEG is sent again with ACK once the
partner's has come (R328-R331). -/
def Obligations.LinksTrainAndNegotiate : Prop :=
  (∀ (s : State) (d : Die) (b : Nat) (l : LinkSt), dieOk s d.val = true → b = linkBlk d.val → l = linkAt s d →
     (fabricRuns s d.val = true → rfb s b LK_CTRL_ENABLE = true → lkState s d.val ≠ 5 → rowDark s d.val = false →
       ∃ t, exec (.lkRetrain d) s = .next t ∧ Trains s t d true l
         ∧ OnlyRegs s t [b, b + LK_CNT_RETRAIN.off] ∧ t = { s with regs := t.regs, links := t.links })
     ∧ (fabricRuns s d.val = true → (rfb s b LK_CTRL_ENABLE = false ∨ lkState s d.val = 5 ∨ rowDark s d.val = true) →
       exec (.lkRetrain d) s = .next s)
     ∧ (fabricRuns s d.val = true → lkState s d.val ≠ 5 → ∃ t, exec (.lkEnable d false) s = .next t ∧ lkState t d.val = 0
       ∧ rfb t b LK_CTRL_ENABLE = false ∧ linkAt t d = { l with phase := .idle } ∧ OtherLinks s t d
       ∧ OnlyRegs s t [b, b + 8] ∧ t = { s with regs := t.regs, links := t.links })
     ∧ (fabricRuns s d.val = true → rfb s b LK_CTRL_ENABLE = false → lkState s d.val ≠ 5 → rowDark s d.val = false →
       ∃ t, exec (.lkEnable d true) s = .next t ∧ Trains s t d false l ∧ rfb t b LK_CTRL_ENABLE = true ∧ OnlyRegs s t [b, b + 8]
       ∧ t = { s with regs := t.regs, links := t.links })
     ∧ (fabricRuns s d.val = true → rfb s b LK_CTRL_ENABLE = true →
       ∃ t, exec (.lkEnable d true) s = .next t ∧ OnlyRegs s t [] ∧ t = { s with regs := t.regs })
     ∧ (1 ≤ lkState s d.val → lkState s d.val ≤ 3 → rfb s b LK_CTRL_ENABLE = true → rowDark s d.val = false →
       ∃ t, exec (.lossOfLight d) s = .next t ∧ Trains s t d false l ∧ rfb t b LK_STATUS_LOS = true ∧ OnlyRegs s t [b]
         ∧ t = { s with regs := t.regs, links := t.links })
     ∧ ((lkState s d.val = 0 ∨ 4 ≤ lkState s d.val) → exec (.lossOfLight d) s = .next s)
     ∧ ∀ r : TrainResult,
       (l.phase = .idle → exec (.trainingPhaseComplete d r) s = .next s)
       ∧ (r.ok = true → l.phase = .signal → ∃ t, exec (.trainingPhaseComplete d r) s = .next t
         ∧ linkAt t d = { l with phase := if l.retrain then .laneTest else .equalise } ∧ OtherLinks s t d
         ∧ rfb t b LK_STATUS_LOS = false ∧ OnlyRegs s t [b])
       ∧ (r.ok = true → l.phase = .equalise → ∃ t, exec (.trainingPhaseComplete d r) s = .next t
         ∧ linkAt t d = { l with phase := .laneTest } ∧ OtherLinks s t d ∧ t = { s with links := t.links })
       ∧ (r.ok = true → l.phase = .laneTest → 5 ≤ laneCount r.rxPass → 5 ≤ laneCount r.txPass →
         ∃ t, exec (.trainingPhaseComplete d r) s = .next t
           ∧ linkAt t d = { l with phase := .map, rxPass := r.rxPass, txPass := r.txPass } ∧ OtherLinks s t d
           ∧ t = { s with links := t.links })
       ∧ (∀ rx tx, r.ok = true → l.phase = .map → laneMap l.rxPass = some rx → laneMap l.txPass = some tx →
         ∃ t, exec (.trainingPhaseComplete d r) s = .next t ∧ linkAt t d = { l with phase := .negotiate }
           ∧ lkState t d.val = 2 ∧ rxUse t d.val = rx ∧ txUse t d.val = tx
           ∧ rfb t b LK_STATUS_DEGRADED = (laneCount rx == 5 || laneCount tx == 5)
           ∧ OnlyRegs s t [b, b + LK_LANES_RXUSE.off])
       ∧ (r.ok = true → l.phase = .negotiate → (l.negSent && l.negGot && l.negAcked) = false →
         exec (.trainingPhaseComplete d r) s = .next s)
       ∧ (r.ok = true → l.phase = .negotiate → (l.negSent && l.negGot && l.negAcked) = true →
         l.txq = [] → l.ctlq = [] → (∀ p ∈ l.lastPhys, p = regWord s (b + 0x18)) →
         ∃ t, exec (.trainingPhaseComplete d r) s = .next t ∧ lkState t d.val = 3
           ∧ linkAt t d = { l with
               phase := .idle, attempts := 0, lastPhys := some (regWord s (b + 0x18)), replays := 0
               slot := (linkAt t d).slot, deal := (linkAt t d).deal, nextTx := (linkAt t d).nextTx }
           ∧ flitsOf t.outbox = flitsOf s.outbox ++ l.replay.map (fun f => (d.val, f.2)))
       ∧ (r.ok = true → l.phase = .negotiate → (l.negSent && l.negGot && l.negAcked) = true →
         l.txq = [] → l.ctlq = [] → (∃ p ∈ l.lastPhys, p ≠ regWord s (b + 0x18)) →
         ∃ t, exec (.trainingPhaseComplete d r) s = .next t ∧ lkState t d.val = 3 ∧ (linkAt t d).replay = []
           ∧ (linkAt t d).rxPkts = [] ∧ (linkAt t d).partialRx = [] ∧ (linkAt t d).lastPhys = some (regWord s (b + 0x18))
           ∧ t.outbox = s.outbox)
       ∧ (l.phase ≠ .idle → (r.ok = false ∨ (l.phase = .laneTest ∧ (laneCount r.rxPass < 5 ∨ laneCount r.txPass < 5))) →
         (l.attempts < 2 → ∃ t, exec (.trainingPhaseComplete d r) s = .next t ∧ lkState t d.val = 1
           ∧ linkAt t d = signalPhase { l with attempts := l.attempts + 1 } l.retrain ∧ OnlyRegs s t [b])
         ∧ (2 ≤ l.attempts → ∃ t, exec (.trainingPhaseComplete d r) s = .next t ∧ lkState t d.val = 4
           ∧ (linkAt t d).phase = .idle ∧ t.mem = s.mem ∧ t.cores = s.cores)))
  ∧ (∀ (s : State) (d : Die) (b : Nat) (l : LinkSt), dieOk s d.val = true → b = linkBlk d.val → l = linkAt s d →
       (∀ m, lkState s d.val ≠ 2 → exec (.neg d m) s = .next s ∧ exec (.negResend d) s = .next s)
       ∧ (lkState s d.val = 2 → ∀ (m : NegMsg) (v : Nat), v = min (runningBank s).lvmax.toNat m.vmax.toNat →
         (v < max (runningBank s).lvmin.toNat m.vmin.toNat →
           ∃ t, exec (.neg d m) s = .next t ∧ lkState t d.val = 4 ∧ (linkAt t d).incompatible = true
             ∧ (linkAt t d).phase = .idle ∧ t.mem = s.mem ∧ t.cores = s.cores)
         ∧ (max (runningBank s).lvmin.toNat m.vmin.toNat ≤ v →
           ∃ t, exec (.neg d m) s = .next t ∧ rf t b LK_STATUS_VERSION = v
             ∧ rfb t b LK_STATUS_CRIER = m.feat.getLsbD 0 ∧ rfb t b LK_STATUS_RTSPARE = m.feat.getLsbD 1
             ∧ rf t b LK_PARTNER_POS = m.pos.toNat ∧ rf t b LK_PARTNER_ALGREV = m.algrev.toNat
             ∧ rf t b LK_PARTNER_LMOD = m.lmod.toNat ∧ rfb t b LK_PARTNER_NOLMOD = m.nolmod
             ∧ rf t b LK_PARTNER_DIE = m.die.toNat ∧ rf t b LK_PARTNER_COL = m.col.toNat ∧ rf t b LK_PARTNER_ROW = m.row.toNat
             ∧ regWord t (b + 0x18) = m.physid ∧ rfb t b LK_STATUS_MISWIRED = miswired s d.val m ∧ lkState t d.val = 2
             ∧ linkAt t d = { l with negGot := true, negAcked := l.negAcked || m.acked } ∧ OtherLinks s t d
             ∧ OnlyRegs s t [b, b + 0x10, b + 0x18] ∧ t = { s with regs := t.regs, links := t.links }))
       ∧ (l.ctlq ≠ [] → exec (.negResend d) s = .next s)
       ∧ (lkState s d.val = 2 → ControlGoes s d → ∃ t bytes, exec (.negResend d) s = .next t
         ∧ FlitSent s t d 2 false 0xFF (negBytes s d.val) bytes ∧ (linkAt t d).negSent = (l.negSent || l.negGot)
         ∧ OtherLinks s t d ∧ OnlyRegs s t [b, b + LK_LANES_RXUSE.off, b + LK_CNT_TXFLIT.off]))

/-- A flit that decodes, checks and carries the expected sequence number is accepted: what it acknowledges is kept no longer, the
credits it returns count again, and its payload is taken; any other is rejected and the first of a burst answered with NAK.
The acknowledgement goes out in an IDLE flit; a timeout sends the kept flits again, and the third makes the link retrain
(R318-R320, R324, R325). -/
def Obligations.FlitsAreAcceptedOrSentAgain : Prop :=
  ∀ (s : State) (d : Die) (b : Nat) (l : LinkSt), dieOk s d.val = true → b = linkBlk d.val → l = linkAt s d →
    (∀ flit ea eb, lkState s d.val ≠ 2 → lkState s d.val ≠ 3 →
      exec (.flitReceive d flit ea eb) s = .next s ∧ exec (.ackTimer d) s = .next s
        ∧ exec (.replayTimeout d) s = .next s)
    ∧ ((lkState s d.val = 2 ∨ lkState s d.val = 3) →
      (∀ flit ea eb, ¬ FlitGood l flit (decide (ea ≤ 4 ∧ eb ≤ 4)) → ∃ t, exec (.flitReceive d flit ea eb) s = .next t
        ∧ (linkAt t d).nakSent = true ∧ (linkAt t d).rxSeq = l.rxSeq ∧ (linkAt t d).rxPkts = l.rxPkts
        ∧ (linkAt t d).replay = l.replay
        ∧ regWord t (b + LK_CNT_CRCERR.off) = regWord s (b + LK_CNT_CRCERR.off) + 1
        ∧ (if l.nakSent = true then t.outbox = s.outbox else ∃ bytes, FlitSent s t d 0 true 0xFF [] bytes))
      ∧ (∀ flit ea eb ty ack k, ea ≤ 4 → eb ≤ 4 → FlitGood l flit true → l.txq = [] → l.ctlq = [] →
        leAt flit 2 2 / 4096 % 2 = 0 → l.sinceAck < 63 → ty = leAt flit 0 2 / 4096 → ack = BitVec.ofNat 12 (leAt flit 2 2) →
        k = takeReturn (takeAck { l with nakSent := false } ack) (leAt flit 4 2 % 32) (leAt flit 4 2 / 32 % 2 == 1)
          (leAt flit 4 2 / 64) →
        ∃ t, exec (.flitReceive d flit ea eb) s = .next t ∧ t.outbox = s.outbox
          ∧ (ty = 0 → linkAt t d = { k with sinceAck := l.sinceAck + 1 })
          ∧ ((ty = 2 ∨ (ty = 1 ∧ rfb s b LK_STATUS_MISWIRED = true)) →
            linkAt t d = { k with rxSeq := l.rxSeq + 1, sinceAck := l.sinceAck + 1 })
          ∧ (ty = 1 → rfb s b LK_STATUS_MISWIRED = false → linkAt t d
            = takePayload { k with rxSeq := l.rxSeq + 1, sinceAck := l.sinceAck + 1 } (leAt flit 6 1) (slice flit 12 240))
          ∧ regWord t (b + LK_CNT_RXFLIT.off) = regWord s (b + LK_CNT_RXFLIT.off) + 1
          ∧ regWord t (b + LK_CNT_FECSYM.off) = regWord s (b + LK_CNT_FECSYM.off) + BitVec.ofNat 64 (ea + eb)
          ∧ OnlyRegs s t [b + LK_CNT_RXFLIT.off, b + LK_CNT_FECSYM.off] ∧ OtherLinks s t d)
      ∧ (∃ t bytes, exec (.ackTimer d) s = .next t ∧ FlitSent s t d 0 false 0xFF [] bytes ∧ OtherLinks s t d)
      ∧ (l.replay = [] → exec (.replayTimeout d) s = .next s)
      ∧ (l.replay ≠ [] → ∃ t, exec (.replayTimeout d) s = .next t
        ∧ flitsOf t.outbox = flitsOf s.outbox ++ l.replay.map (fun f => (d.val, f.2))
        ∧ regWord t (b + LK_CNT_REPLAY.off) = regWord s (b + LK_CNT_REPLAY.off) + BitVec.ofNat 64 l.replay.length
        ∧ (l.replays < 2 → linkAt t d = { l with
              replays := l.replays + 1
              slot := (linkAt t d).slot, deal := (linkAt t d).deal, nextTx := (linkAt t d).nextTx }
            ∧ lkState t d.val = lkState s d.val)
        ∧ (2 ≤ l.replays → rfb s b LK_CTRL_ENABLE = true → rowDark s d.val = false →
          Trains s t d true { l with
            replays := l.replays + 1, slot := (linkAt t d).slot, deal := (linkAt t d).deal })))
    ∧ (∀ (x : LinkSt) pre f post, x.replay = pre ++ f :: post → (∀ y ∈ pre, y.1 ≠ f.1) →
      takeAck x f.1 = { x with replay := post, ackSeq := f.1, replays := 0 })
    ∧ ∀ (x : LinkSt) a, (∀ y ∈ x.replay, y.1 ≠ a) → takeAck x a = x

/-- A lane that lost its light, or whose corrected bytes exceed the threshold, is swapped for the spare where runtime sparing is
agreed and a spare is free, or the link retrains; the sender deals by the new map from its next alignment block on, and the
receiver follows the map of the alignment block. A cartridge that loses a laser raises the others' bias; a second one, or an
opened latch, fails the row's links (R316, R317, R319, R323). -/
def Obligations.LanesAndCartridges : Prop :=
  ∀ (s : State) (d : Die) (b : Nat) (l : LinkSt), dieOk s d.val = true → b = linkBlk d.val → l = linkAt s d →
    (∀ (lane : Fin 7) (k : BitVec 32), (lkState s d.val ≠ 3 ∨ (rxUse s d.val).getLsbD lane.val = false
        ∨ k.toNat ≤ rf s b LK_SPARE_THRESH) →
      exec (.laneFail d ⟨lane, some k⟩) s = .next s)
    ∧ (∀ lane : Fin 7, ∃ t, exec (.laneFail d ⟨lane, none⟩) s = .next t ∧ rfb t b LK_STATUS_LOS = true
      ∧ ((lkState s d.val ≠ 3 ∨ (rxUse s d.val).getLsbD lane.val = false) → OnlyRegs s t [b] ∧ t = { s with regs := t.regs }))
    ∧ (∀ (lane : Fin 7) (k : Option (BitVec 32)), lkState s d.val = 3 → (rxUse s d.val).getLsbD lane.val = true →
      (∀ n ∈ k, rf s b LK_SPARE_THRESH < n.toNat) →
      (rfb s b LK_STATUS_RTSPARE = true → ControlGoes s d → ∃ t bytes, exec (.laneFail d ⟨lane, k⟩) s = .next t
        ∧ FlitSent s t d 2 false 0xFF (swapBytes 2 lane.val false) bytes
        ∧ (linkAt t d).swapRx = some (BitVec.ofNat 3 lane.val) ∧ lkState t d.val = 3)
      ∧ (rfb s b LK_STATUS_RTSPARE = false → rfb s b LK_CTRL_ENABLE = true → rowDark s d.val = false →
        ∃ t, exec (.laneFail d ⟨lane, k⟩) s = .next t ∧ Trains s t d true l))
    ∧ (∀ lane : BitVec 3, (lkState s d.val ≠ 3 ∨ rfb s b LK_STATUS_RTSPARE = false) → exec (.swap d lane) s = .next s)
    ∧ (∀ (lane : BitVec 3) m, lkState s d.val = 3 → rfb s b LK_STATUS_RTSPARE = true → ControlGoes s d →
      spareMap (l.nextTx.getD (txUse s d.val)) l.txPass lane.toNat = some m →
      ∃ t bytes, exec (.swap d lane) s = .next t ∧ FlitSent s t d 2 false 0xFF (swapBytes 3 lane.toNat false) bytes
        ∧ (linkAt t d).nextTx = some m ∧ rxUse t d.val = rxUse s d.val
        ∧ (linkAt t d).txPass.getLsbD lane.toNat = false ∧ lkState t d.val = 3)
    ∧ (∀ lane : BitVec 3, lkState s d.val = 3 → rfb s b LK_STATUS_RTSPARE = true → ControlGoes s d →
      rfb s b LK_CTRL_ENABLE = true → rowDark s d.val = false →
      spareMap (l.nextTx.getD (txUse s d.val)) l.txPass lane.toNat = none →
      ∃ t bytes, exec (.swap d lane) s = .next t ∧ t.outbox = s.outbox ++ flitOut s d bytes ∧ lkState t d.val = 1
        ∧ bytes = flitBytes 2 l.txSeq (l.rxSeq - 1) false (l.owed.headD (0, false, 0)) 0xFF (swapBytes 3 lane.toNat true))
    ∧ (∀ (lane : BitVec 3) refuse, (lkState s d.val ≠ 3 ∨ l.swapRx ≠ some lane) → exec (.swapack d lane refuse) s = .next s)
    ∧ (∀ lane : BitVec 3, lkState s d.val = 3 → l.swapRx = some lane →
      (∃ t, exec (.swapack d lane false) s = .next t ∧ linkAt t d = { l with swapRx := none } ∧ OtherLinks s t d
        ∧ t = { s with links := t.links })
      ∧ (rfb s b LK_CTRL_ENABLE = true → rowDark s d.val = false → ∃ t, exec (.swapack d lane true) s = .next t ∧ Trains s t d true l))
    ∧ (∀ map : BitVec 7, (lkState s d.val = 2 ∨ lkState s d.val = 3) → 5 ≤ laneCount map → laneCount map ≤ 6 →
      ∃ t, exec (.alignmentBlock d map) s = .next t ∧ rxUse t d.val = map ∧ txUse t d.val = txUse s d.val
        ∧ rfb t b LK_STATUS_DEGRADED = (laneCount map == 5 || laneCount (txUse s d.val) == 5)
        ∧ OnlyRegs s t [b, b + LK_LANES_RXUSE.off] ∧ t = { s with regs := t.regs })
    ∧ ∀ r : Fin 6, r.val < nrow s →
      ((getRow s r.val).lost = 0 → ∃ t, exec (.laserFail r) s = .next t
        ∧ getRow t r.val = { getRow s r.val with lost := 1, raised := true }
        ∧ (∀ e : Die, lkState t e.val = lkState s e.val) ∧ t.mem = s.mem)
      ∧ ((getRow s r.val).lost = 1 → ∃ t, exec (.laserFail r) s = .next t
        ∧ getRow t r.val = { getRow s r.val with lost := 2, raised := true }
        ∧ (∀ e : Die, lkState t e.val
          = (if e.val / 6 = r.val ∧ lkState s e.val ≠ 5 ∧ lkState s e.val ≠ 0 then 4 else lkState s e.val)) ∧ t.mem = s.mem)
      ∧ (∃ t, exec (.latchOpen r) s = .next t ∧ getRow t r.val = { getRow s r.val with latchOpen := true, lasersOff := true }
        ∧ (∀ e : Die, lkState t e.val
          = (if e.val / 6 = r.val ∧ lkState s e.val ≠ 5 ∧ lkState s e.val ≠ 0 then 4 else lkState s e.val))
        ∧ t = { s with rows := t.rows, regs := t.regs, links := t.links })
      ∧ ∃ t, exec (.latchClose r) s = .next t ∧ t = { s with rows := t.rows }
        ∧ ((getRow s r.val).latchOpen = true → (getRow t r.val).latchOpen = false ∧ (getRow t r.val).lost = 0
          ∧ (getRow t r.val).raised = false
          ∧ (getRow t r.val).identity = Config.cartridge r.val ((getRow s r.val).exchanged + 1))
        ∧ ((getRow s r.val).latchOpen = false → getRow t r.val = getRow s r.val)

/-- READ and WRITE of this epoch at their home are performed and answered with their tag and source, or wait there for the exit
of a die below Run; an unmapped one is refused, and one over a down edge or to a failed stack poisoned; a packet for another
module goes on with its hop counted, and one of another epoch, at its last hop or without a route is discarded and counted; a
response goes over the mesh to its source (R181, R190, R326, R335, R339, R420). -/
def Obligations.TransportPacketsAreServedOrPassedOn : Prop :=
  ∀ (s : State) (d : Die) (p : TPkt), dieOk s d.val = true → belowRun s d.val = false →
    (∀ i ∈ [Instr.read d p, .write d p, .rdata d p, .wack d p], otherEpoch s d.val p = true →
      ∃ t, exec i s = .next t
        ∧ regWord t (linkBlk d.val + LK_CNT_STALE.off) = regWord s (linkBlk d.val + LK_CNT_STALE.off) + 1
        ∧ OnlyRegs s t [linkBlk d.val + LK_CNT_STALE.off] ∧ OtherLinks s t d ∧ t = { s with regs := t.regs, links := t.links })
    ∧ (otherEpoch s d.val p = false →
      (isOwn s (addrMod p.addr) = true →
        (∀ e l, plainTarget s p.addr p.len.toNat = some (e, l) → ¬ isRegister l → routeDown s d.val e = false →
          belowRun s e = false → waitsAt s e = false → memSound s e l p.len.toNat = true → LinkWaits s e p.smod.toNat →
          ∃ t, exec (.read d p) s = .next t
            ∧ QueuedFor s t e p.smod.toNat 3 (homeAnswer s e p 0 (peek s e l p.len.toNat)) ∧ RegsBut s t [] ∧ t.mem = s.mem
            ∧ t.cores = s.cores)
        ∧ (∀ e l, plainTarget s p.addr p.data.length = some (e, l) → ¬ isRegister l → routeDown s d.val e = false →
          belowRun s e = false → waitsAt s e = false → LinkWaits s e p.smod.toNat →
          ∃ t, exec (.write d p) s = .next t
            ∧ QueuedFor s t e p.smod.toNat 4
                (homeAnswer s e p (if (deadIn s e l p.data.length).isSome then 1 else 0) [])
            ∧ (deadIn s e l p.data.length = none → Stored s t [(memAt e l, p.data)]) ∧ RegsBut s t [] ∧ CoresButIbuf s t)
        ∧ (∀ e l, routeDown s d.val e = false → waitsAt s e = true →
          (plainTarget s p.addr p.len.toNat = some (e, l) → ∃ t, exec (.read d p) s = .next t
            ∧ (getPow t e).held = (getPow s e).held ++ [.packet d.val 1 p] ∧ t.mem = s.mem ∧ t.outbox = s.outbox)
          ∧ (plainTarget s p.addr p.data.length = some (e, l) → ∃ t, exec (.write d p) s = .next t
            ∧ (getPow t e).held = (getPow s e).held ++ [.packet d.val 2 p] ∧ t.mem = s.mem ∧ t.outbox = s.outbox))
        ∧ (plainTarget s p.addr p.len.toNat = none → LinkWaits s d.val p.smod.toNat →
          ∃ t, exec (.read d p) s = .next t ∧ QueuedFor s t d.val p.smod.toNat 3 (homeAnswer s d.val p 2 [])
            ∧ RegsBut s t [] ∧ t = { s with links := t.links, regs := t.regs })
        ∧ (plainTarget s p.addr p.data.length = none → LinkWaits s d.val p.smod.toNat →
          ∃ t, exec (.write d p) s = .next t ∧ QueuedFor s t d.val p.smod.toNat 4 (homeAnswer s d.val p 2 [])
            ∧ RegsBut s t [] ∧ t = { s with links := t.links, regs := t.regs })
        ∧ (∀ e l, plainTarget s p.addr p.len.toNat = some (e, l) → routeDown s d.val e = true →
          LinkWaits s d.val p.smod.toNat →
          ∃ t, exec (.read d p) s = .next t ∧ QueuedFor s t d.val p.smod.toNat 3 (homeAnswer s d.val p 1 [])
            ∧ RegsBut s t [] ∧ t = { s with links := t.links, regs := t.regs }))
      ∧ (∀ i m opc, (i, m, opc) ∈ [(Instr.read d p, addrMod p.addr, 1), (.write d p, addrMod p.addr, 2),
          (.rdata d p, p.smod.toNat, 3), (.wack d p, p.smod.toNat, 4)] → isOwn s m = false →
        (p.hop ≠ 15 → LinkWaits s d.val m →
          ∃ t, exec i s = .next t ∧ QueuedFor s t d.val m opc { p with hop := p.hop + 1 } ∧ RegsBut s t []
            ∧ t = { s with links := t.links, regs := t.regs })
        ∧ ((p.hop = 15 ∨ routeRow s d.val m = none) →
          ∃ t, exec i s = .next t
            ∧ regWord t (linkBlk d.val + LK_CNT_STALE.off) = regWord s (linkBlk d.val + LK_CNT_STALE.off) + 1
            ∧ OtherLinks s t d ∧ t = { s with regs := t.regs, links := t.links }))
      ∧ (isOwn s p.smod.toNat = true → dieOk s p.sdie.toNat = true → routeDown s d.val p.sdie.toNat = false →
        (∀ i ∈ [Instr.rdata d p, .wack d p], p.sunit.toNat ≠ unitReq →
          (512 ≤ p.sunit.toNat ∨ (getCore s p.sdie.toNat (p.sunit.toNat % 256)).orphans = []) →
          ∃ t, exec i s = .next t
            ∧ t.arrived = s.arrived ++ [(p.sdie.toNat, p.sunit.toNat, p.tag.toNat, p.status.toNat, p.data)]
            ∧ OtherLinks s t d ∧ RegsBut s t [] ∧ t = { s with links := t.links, arrived := t.arrived, regs := t.regs })
        ∧ (p.sunit.toNat = unitReq → ∃ t, exec (.rdata d p) s = .next t
          ∧ t.outbox = s.outbox ++ [.read p.data (p.status.toNat != 0)] ∧ RegsBut s t []
          ∧ t = { s with links := t.links, outbox := t.outbox, regs := t.regs })))

/-- A notice that a link has seen is counted there and goes no further; one it has not seen is entered and passed on, to the
module's table where this module collects; a count adds to its entry; a flush leaves nothing pending and an expiry forgets its
entry, in the link's table or, at die 0 (the model's choice, log 31), in the module controller's (R340-R342). -/
def Obligations.NoticesAreSuppressedAndCounted : Prop :=
  ∀ (s : State) (d : Die) (p : TPkt) (l : LinkSt) (e : CrierEnt), dieOk s d.val = true → l = linkAt s d →
    e = (noticeOf p.data).1 → l.rxPkts = [] → belowRun s d.val = false →
    (rfb s (linkBlk d.val) LK_STATUS_CRIER = true → (∃ x ∈ l.crier, x.fid = e.fid) →
      (∃ t, exec (.notice d p) s = .next t
        ∧ linkAt t d = { l with crier := l.crier.map fun x => if x.fid = e.fid then { x with pending := x.pending + 1 } else x }
        ∧ regWord t (linkBlk d.val + LK_CNT_CRIERDUP.off) = regWord s (linkBlk d.val + LK_CNT_CRIERDUP.off) + 1
        ∧ OnlyRegs s t [linkBlk d.val + LK_CNT_CRIERDUP.off] ∧ t = { s with regs := t.regs, links := t.links })
      ∧ ∃ t, exec (.count d p) s = .next t
        ∧ linkAt t d = { l with crier := l.crier.map fun x =>
            if x.fid = e.fid then { x with pending := x.pending + (noticeOf p.data).2 } else x }
        ∧ t = { s with links := t.links })
    ∧ (rfb s (linkBlk d.val) LK_STATUS_CRIER = true → (∀ x ∈ l.crier, x.fid ≠ e.fid) → l.crier.length < 256 →
      isOwn s (addrMod p.addr) = true → (∀ x ∈ s.torter.notices, x.fid ≠ e.fid) → collector s = none →
      ∃ t, exec (.notice d p) s = .next t ∧ linkAt t d = { l with crier := l.crier ++ [{ e with pending := 0 }] }
        ∧ t.torter.notices = { e with pending := 0, total := 1, quiet := 0 }
            :: (if s.torter.notices.length < 4096 then s.torter.notices else s.torter.notices.dropLast)
        ∧ (heldEvents (eventRoom s) (s.torter.events ++ [⟨0x07F0, noticeBytes e 1⟩]) ≤ 256 →
          t.torter.events = s.torter.events ++ [⟨0x07F0, noticeBytes e 1⟩])
        ∧ t = { s with links := t.links, torter := t.torter })
    ∧ (rfb s (linkBlk d.val) LK_STATUS_CRIER = false → isOwn s (addrMod p.addr) = true →
      (∃ x ∈ s.torter.notices, x.fid = e.fid) →
      ∃ t, exec (.notice d p) s = .next t ∧ linkAt t d = l
        ∧ t.torter.notices = s.torter.notices.map fun x =>
            if x.fid = e.fid then { x with pending := x.pending + 1, total := x.total + 1, quiet := 0 } else x)
    ∧ (∃ t, exec (.crierFlush d) s = .next t
      ∧ (linkAt t d).crier = l.crier.map (fun x => { x with pending := 0 })
      ∧ (d.val = 0 → ∀ x ∈ t.torter.notices, x.pending = 0) ∧ t.mem = s.mem ∧ t.cores = s.cores)
    ∧ (∀ fid, (∀ x ∈ l.crier, x.fid ≠ fid) →
      ((d.val ≠ 0 ∨ ∀ x ∈ s.torter.notices, x.fid ≠ fid) → exec (.crierExpiry d fid) s = .next s)
      ∧ (d.val = 0 → ∃ t, exec (.crierExpiry d fid) s = .next t
        ∧ t.torter.notices = s.torter.notices.filter (fun x => x.fid != fid) ∧ t.mem = s.mem ∧ t.cores = s.cores))
    ∧ (∀ fid, (∃ x ∈ l.crier, x.fid = fid) → ∃ t, exec (.crierExpiry d fid) s = .next t
      ∧ (linkAt t d).crier = l.crier.filter (fun x => x.fid != fid) ∧ t.mem = s.mem ∧ t.cores = s.cores)

/-! The host's side (R382-R396, R408, R465). -/

/-- DOORBELL reads the packets published, and an idle path takes up the one that is in sequence and passes its checks; a tail
outside the ring or an unreadable ring stops the queue; a queue is enabled with indices and sequence state afresh, or refused,
and disabled with what waits dropped (R388, R390). A packet that reaches the management port: in sequence and sound, it waits
to execute; a repeated one brings its reply again; any other is answered with the status that R394, R395 or R472 gives. A port
that nothing serves, and a payload without a header or longer than 4,128 bytes, are dropped (R393-R395, R408, R441, R472). -/
def Obligations.QueuesTakePacketsInSequence : Prop :=
  (∀ (s : State) (b : Nat),
     (∀ (q : Fin 16) (tail : Word) (ring : List Byte) (bad : Bool), b = queueBlk q.val →
       (queueOn s q.val = false → exec (.doorbell q tail ring bad) s = .next s)
       ∧ (queueOn s q.val = true → 2 ^ rf s b Q_CFG_CMDLOG2 ≤ fget tail Q_CMDTAIL_TAIL → rfb s b Q_STATUS_ERR = false →
         ∃ t, exec (.doorbell q tail ring bad) s = .next t ∧ QueueStops s t q.val 3 ∧ OnlyRegs s t [b + 0x30])
       ∧ ∀ n, queueOn s q.val = true → fget tail Q_CMDTAIL_TAIL < 2 ^ rf s b Q_CFG_CMDLOG2 →
         rfb s b Q_STATUS_ERR = false → rfb s bar0Blk MCI_STATUS_FATAL = false →
         n = (fget tail Q_CMDTAIL_TAIL + 2 ^ rf s b Q_CFG_CMDLOG2 - rf s b Q_CMDHEAD_HEAD) % 2 ^ rf s b Q_CFG_CMDLOG2 →
         OthersQuiet s q.val → s.attach.cache.length + n ≤ 8192 →
         (n = 0 → ∃ t, exec (.doorbell q tail ring bad) s = .next t ∧ rf t b Q_CMDTAIL_TAIL = fget tail Q_CMDTAIL_TAIL
           ∧ OnlyRegs s t [b + 0x18] ∧ t = { s with regs := t.regs })
         ∧ (n ≠ 0 → bad = true → ∃ t, exec (.doorbell q tail ring bad) s = .next t ∧ QueueStops s t q.val 2)
         ∧ (∀ k, n ≠ 0 → bad = false → 64 * n ≤ ring.length → (32 + leAt ring 8 4 + 63) / 64 = n →
           rf s b Q_CMDHEAD_HEAD < 2 ^ rf s b Q_CFG_CMDLOG2 →
           k = packetOf 0 (ring.take (32 + leAt ring 8 4)) →
           ((getPath s q.val).current.isSome = true → ∃ t, exec (.doorbell q tail ring bad) s = .next t
             ∧ getPath t q.val = { getPath s q.val with accepted := (getPath s q.val).accepted ++ [k] }
             ∧ rf t b Q_CMDHEAD_HEAD = fget tail Q_CMDTAIL_TAIL ∧ OnlyRegs s t [b + 0x18, b + 0x20])
           ∧ (PathIdle s q.val → VersionServed s k → InSequence s q.val k → headCheck s q.val k = .fine →
             ∃ t, exec (.doorbell q tail ring bad) s = .next t ∧ TakenUp s t q.val k
               ∧ rf t b Q_CMDHEAD_HEAD = fget tail Q_CMDTAIL_TAIL ∧ rfb t b Q_STATUS_ACTIVE = true
               ∧ t.outbox = s.outbox)))
     ∧ (∀ (q : Fin 17), b = queueBlk q.val →
       (queueOn s q.val = true → exec (.queueEnable q) s = .next s)
       ∧ (queueOn s q.val = false → 7 ≤ rf s b Q_CFG_CPLLOG2 → rf s b Q_CFG_CPLLOG2 ≤ 12 → rf s b Q_CPLBASE_ADDR ≠ 0 →
         (q.val < 16 → 7 ≤ rf s b Q_CFG_CMDLOG2 ∧ rf s b Q_CFG_CMDLOG2 ≤ 12 ∧ rf s b Q_CMDBASE_ADDR ≠ 0) →
         ∃ t, exec (.queueEnable q) s = .next t ∧ queueOn t q.val = true ∧ rfb t b Q_STATUS_ERR = false
           ∧ regWord t (b + 0x18) = 0 ∧ regWord t (b + 0x20) = 0 ∧ regWord t (b + 0x28) = 0
           ∧ getRing t q.val = { RingSt.reset with discard := (getRing s q.val).discard }
           ∧ (q.val < 16 → getPath t q.val = { getPath s q.val with seqs := [] })
           ∧ (q.val = 16 → t.torter.eventSerial = 0)
           ∧ OnlyRegs s t [b + 0x10, b + 0x18, b + 0x20, b + 0x28, b + 0x30])
       ∧ (queueOn s q.val = false → (rf s b Q_CFG_CPLLOG2 < 7 ∨ 12 < rf s b Q_CFG_CPLLOG2 ∨ rf s b Q_CPLBASE_ADDR = 0) →
         ∃ t, exec (.queueEnable q) s = .next t ∧ QueueStops s t q.val 4 ∧ queueOn t q.val = false)
       ∧ (∃ t, exec (.queueDisable q) s = .next t ∧ queueOn t q.val = false ∧ OnlyRegs s t [b + 0x10, b + 0x30]
         ∧ (q.val < 16 → getPath t q.val = { getPath s q.val with accepted := [], replies := [] }
           ∧ getRing t q.val = { getRing s q.val with
               discard := (getRing s q.val).discard || (getPath s q.val).current.isSome }))))
  ∧ (∀ (s : State) (sender : Nat) (pkt : List Byte) (k : Pkt), k = packetOf sender pkt →
       ((served s = false ∨ pkt.length < 32 ∨ 4128 < pkt.length) → exec (.mgmtDatagram sender pkt) s = .next s)
       ∧ (served s = true → 32 ≤ pkt.length → pkt.length ≤ 4128 → PathIdle s 16 → OthersQuiet s 16 →
         (VersionServed s k → InSequence s 16 k → headCheck s 16 k = .fine →
           ∃ t, exec (.mgmtDatagram sender pkt) s = .next t ∧ TakenUp s t 16 k ∧ t = { s with torter := t.torter })
         ∧ (∀ st data, VersionServed s k → InSequence s 16 k → headCheck s 16 k = .status st data →
           ∃ t, exec (.mgmtDatagram sender pkt) s = .next t
             ∧ t.outbox = s.outbox ++ [.datagram sender (replyBytes (mkReply s k st data) false)]
             ∧ seqOf t 16 k = some ⟨sender, k.seq, some (mkReply s k st data)⟩ ∧ (getPath t 16).current = none)
         ∧ (¬ VersionServed s k → ∃ t, exec (.mgmtDatagram sender pkt) s = .next t
           ∧ t.outbox = s.outbox ++ [.datagram sender (replyBytes (mkReply s k scUNSUPPORTED_VERSION
               [BitVec.ofNat 8 (versions s).1, BitVec.ofNat 8 (versions s).2]) false)] ∧ PathIdle t 16
           ∧ (getPath t 16).seqs = (getPath s 16).seqs)
         ∧ (∀ x r, VersionServed s k → seqOf s 16 k = some x → k.seq = x.seq → x.reply = some r → r.sender = sender →
           ∃ t, exec (.mgmtDatagram sender pkt) s = .next t
             ∧ t.outbox = s.outbox ++ [.datagram sender (replyBytes r false)] ∧ PathIdle t 16 ∧ seqOf t 16 k = some x)
         ∧ (∀ x, VersionServed s k → seqOf s 16 k = some x → k.seq ≠ x.seq → k.seq ≠ x.seq + 1 →
           ∃ t, exec (.mgmtDatagram sender pkt) s = .next t
             ∧ t.outbox = s.outbox ++ [.datagram sender (replyBytes (mkReply s k scSEQUENCE_ERROR []) false)] ∧ PathIdle t 16
             ∧ (getPath t 16).seqs = (getPath s 16).seqs)))

/-- A reply or an event goes to its ring where it fits, at the tail and with the ring's PHASE, and counts towards the interrupt;
an entry released makes room; a reset of the attachment leaves every queue off with indices 0, uncommits the decoder unless it
is a function-level reset, and empties the device cache (R382, R389-R391). -/
def Obligations.CompletionsReachTheirRing : Prop :=
  ∀ s : State,
    (∀ (q : Fin 17) (r : Reply) (n tail : Nat) (x : RingSt), q.val < 16 → (getPath s q.val).replies = [r] →
      (getPath s q.val).accepted = [] → OthersQuiet s q.val → x = getRing s q.val → tail = x.cplTail →
      n = (32 + r.data.length + 63) / 64 → s.attach.cache.length + n ≤ 8192 →
      (cplRoom s q.val < n → ∃ t, exec (.completionWrite q) s = .next t ∧ getPath t q.val = getPath s q.val
        ∧ rfb t (queueBlk q.val) Q_STATUS_CPLFULL = true ∧ t.outbox = s.outbox)
      ∧ (n ≤ cplRoom s q.val → ∃ t, exec (.completionWrite q) s = .next t ∧ (getPath t q.val).replies = []
        ∧ t.outbox = s.outbox ++ [.ring q.val tail (replyBytes r x.phase)]
            ++ (if r.quiet = false ∧ (coalesced s q.val).1 = true then [vectorFires s q.val] else [])
        ∧ getRing t q.val = { x with
            cplTail := (tail + n) % cplSlots s q.val
            phase := if cplSlots s q.val ≤ tail + n then !x.phase else x.phase
            coal := if r.quiet then x.coal else (coalesced s q.val).2 }
        ∧ rfb t (queueBlk q.val) Q_STATUS_CPLFULL = false ∧ t.mem = s.mem))
    ∧ (∀ q : Fin 17, q.val < 16 → (getPath s q.val).replies = [] → exec (.completionWrite q) s = .next s)
    ∧ (∀ (e : Event) (l : List Event) (r : Reply), s.torter.events = e :: l → r = eventReply s e → queueOn s 16 = true →
      rfb s (queueBlk 16) Q_STATUS_ERR = false → rfb s bar0Blk MCI_STATUS_FATAL = false → replySlots r ≤ cplRoom s 16 →
      s.attach.cache.length + replySlots r ≤ 8192 → s.torter.droppedFault = 0 → s.torter.droppedOther = 0 →
      ∃ t, exec (.completionWrite ⟨16, by decide⟩) s = .next t ∧ t.torter.events = l
        ∧ t.torter.eventSerial = s.torter.eventSerial + 1
        ∧ t.outbox = s.outbox ++ [.ring 16 (getRing s 16).cplTail (replyBytes r (getRing s 16).phase)]
            ++ (if (coalesced s 16).1 = true then [vectorFires s 16] else []))
    ∧ (∀ q : Fin 17, ((getRing s q.val).coal = 0 ∨ rf s (queueBlk q.val) Q_COAL_US = 0 ∨ rf s (queueBlk q.val) Q_COAL_COUNT = 0) →
      exec (.coalTimer q) s = .next s)
    ∧ (∀ q : Fin 17, (getRing s q.val).coal ≠ 0 → rf s (queueBlk q.val) Q_COAL_US ≠ 0 → rf s (queueBlk q.val) Q_COAL_COUNT ≠ 0 →
      ∃ t, exec (.coalTimer q) s = .next t ∧ t.outbox = s.outbox ++ [vectorFires s q.val]
        ∧ getRing t q.val = { getRing s q.val with coal := 0 } ∧ t = { s with torter := t.torter, outbox := t.outbox })
    ∧ (∀ (q : Fin 17) (head : Word), fget head Q_CPLHEAD_HEAD < cplSlots s q.val →
      ∃ t, exec (.completionRelease q head) s = .next t ∧ rf t (queueBlk q.val) Q_CPLHEAD_HEAD = fget head Q_CPLHEAD_HEAD
        ∧ OnlyRegs s t [queueBlk q.val + 0x28, queueBlk q.val + 0x30] ∧ t.torter.paths = s.torter.paths ∧ t.mem = s.mem)
    ∧ (∀ (q : Fin 17) (head : Word), cplSlots s q.val ≤ fget head Q_CPLHEAD_HEAD →
      ∃ t, exec (.completionRelease q head) s = .next t ∧ QueueStops s t q.val 3)
    ∧ ∀ i ∈ [Instr.functionLevelReset, .hotReset, .cxlReset, .cxlLinkDown], ∃ t, exec i s = .next t
        ∧ (∀ q < 17, QueueOff t q) ∧ t.torter.stalls = s.torter.stalls
        ∧ (∀ a, a < queueBlk 0 → regWord t a = regWord s a)
        ∧ t.attach = { s.attach with cache := [], hdmCommitted := s.attach.hdmCommitted && i == .functionLevelReset }
        ∧ t.outbox = s.outbox ++ (if i = .cxlLinkDown then [] else writeBacks s.attach.cache)
        ∧ t = { s with regs := t.regs, torter := t.torter, attach := t.attach, outbox := t.outbox }

/-- The window reads and writes the HBM that its map names, poison and unmapped segments reading as poison and an unmapped write
being dropped; a read of a die that is on its way up waits for its exit (R383, R384, R420). The I3C and SMBus target takes a command only where it serves and its path is free, gives a reply
as it is read, and keeps the address assigned to it (R409, R465). -/
def Obligations.WindowAndOutOfBandTargetServe : Prop :=
  (∀ (s : State) (off : Nat),
     (∀ len ps, winRange s off len = some ps → (∀ p ∈ ps, belowRun s p.1 = false ∧ waitsAt s p.1 = false ∧ memSound s p.1 p.2.1 p.2.2 = true) →
       ∃ t, exec (.windowRead off len .clean) s = .next t
         ∧ t.outbox = s.outbox ++ [.window (ps.map fun p => peek s p.1 p.2.1 p.2.2).flatten false] ∧ RegsBut s t []
         ∧ t = { s with regs := t.regs, outbox := t.outbox })
     ∧ (∀ len ps, winRange s off len = some ps → s.upsets = [] →
       (∀ p ∈ ps, belowRun s p.1 = false ∧ waitsAt s p.1 = false) →
       (∃ p ∈ ps, (firstPoison s p.1 p.2.1 p.2.2).isSome = true) →
       ∃ t, exec (.windowRead off len .clean) s = .next t ∧ t.outbox = s.outbox ++ [.window [] true] ∧ t.mem = s.mem)
     ∧ (∀ len ecc, winRange s off len = none →
       exec (.windowRead off len ecc) s = .next { s with outbox := s.outbox ++ [.window [] true] })
     ∧ (∀ len ps d rest, winRange s off len = some ps → d :: rest = (ps.map (·.1)).filter (waitsAt s) →
       (∀ p ∈ ps, (getPow s p.1).exits ≠ [] ∧ pwState s p.1 < 4) →
       ∀ ecc, ∃ t, exec (.windowRead off len ecc) s = .next t ∧ t = { s with dies := t.dies }
         ∧ getPow t d = { getPow s d with held := (getPow s d).held ++ [.windowRead off len ecc] })
     ∧ (∀ data, winRange s off data.length = none → exec (.windowWrite off data) s = .next s)
     ∧ ∀ (data : List Byte) ps, winRange s off data.length = some ps →
       (∀ p ∈ ps, belowRun s p.1 = false ∧ waitsAt s p.1 = false ∧ deadIn s p.1 p.2.1 p.2.2 = none) →
       (∀ i < data.length, ∀ j < data.length, winAt s (off + i) = winAt s (off + j) → i = j) →
       ∃ t, exec (.windowWrite off data) s = .next t
         ∧ (∀ j < data.length, ∃ d l, winAt s (off + j) = some (d, l) ∧ mget t.mem (memAt d l) = data.getD j 0)
         ∧ (∀ b, (∀ j < data.length, ∀ d l, winAt s (off + j) = some (d, l) → b ≠ memAt d l) → mget t.mem b = mget s.mem b)
         ∧ CoresButIbuf s t ∧ RegsBut s t []
         ∧ t = { s with mem := t.mem, poison := t.poison, upsets := t.upsets, regs := t.regs, cores := t.cores })
  ∧ (∀ (s : State) (b : List Byte),
       ((i3cFree s = false ∨ b.headD 0 ≠ 1 ∨ b.length < 33) →
         exec (.i3cPrivateWrite b) s = .next { s with outbox := s.outbox ++ [.nack] })
       ∧ (∀ k, i3cFree s = true → OthersQuiet s 17 → b.headD 0 = 1 → 33 ≤ b.length → k = packetOf 0 (b.drop 1) →
         VersionServed s k → InSequence s 17 k → headCheck s 17 k = .fine →
         ∃ t, exec (.i3cPrivateWrite b) s = .next t ∧ TakenUp s t 17 k ∧ t = { s with torter := t.torter })
       ∧ (∀ len, (getPath s 17).replies = [] → exec (.i3cPrivateRead len) s
         = .next { s with outbox := s.outbox ++ [.i3c [if len = 1 then statusByte s else 0]] })
       ∧ (∀ len r, (getPath s 17).replies = [r] → (getPath s 17).accepted = [] → OthersQuiet s 17 →
         ∃ t, exec (.i3cPrivateRead len) s = .next t ∧ t.outbox = s.outbox ++ [.i3c ((1 :: replyBytes r false).take len)]
           ∧ (getPath t 17).replies = [] ∧ t = { s with torter := t.torter, outbox := t.outbox })
       ∧ (∀ code : Byte, (i3cFree s = false ∨ 32 < b.length ∨ (code ≠ 0x40 ∧ code ≠ 0x41)) →
         exec (.smbusBlockWrite code b) s = .next { s with outbox := s.outbox ++ [.nack] })
       ∧ (i3cFree s = true → b.length ≤ 32 → ∃ t, exec (.smbusBlockWrite 0x40 b) s = .next t
           ∧ t.torter = { s.torter with smbusIn := s.torter.smbusIn ++ b } ∧ t = { s with torter := t.torter })
       ∧ (∀ k, i3cFree s = true → OthersQuiet s 17 → b.length ≤ 32 → 32 ≤ (s.torter.smbusIn ++ b).length →
         k = packetOf 1 (s.torter.smbusIn ++ b) → VersionServed s k → InSequence s 17 k → headCheck s 17 k = .fine →
         ∃ t, exec (.smbusBlockWrite 0x41 b) s = .next t ∧ TakenUp s t 17 k ∧ t.torter.smbusIn = [])
       ∧ ((getPath s 17).replies = [] → exec .smbusBlockRead s = .next { s with outbox := s.outbox ++ [.i3c [0]] })
       ∧ (∀ r n, (getPath s 17).replies = [r] → (getPath s 17).accepted = [] → OthersQuiet s 17 →
         n = min 32 ((replyBytes r false).length - s.torter.smbusOut) →
         ∃ t, exec .smbusBlockRead s = .next t
           ∧ t.outbox = s.outbox ++ [.i3c (BitVec.ofNat 8 n :: ((replyBytes r false).drop s.torter.smbusOut).take n)]
           ∧ (s.torter.smbusOut + n < (replyBytes r false).length →
             t.torter = { s.torter with smbusOut := s.torter.smbusOut + n })
           ∧ ((replyBytes r false).length ≤ s.torter.smbusOut + n →
             (getPath t 17).replies = [] ∧ t.torter.smbusOut = 0))
       ∧ ∀ a, ∃ t, exec (.dynamicAddressAssignment a) s = .next t ∧ t.torter = { s.torter with i3cAddr := some a }
           ∧ t = { s with torter := t.torter })

/-! Commands of the module (R317, R334-R338, R363, R421-R425, R432, R452, R453). -/

/-- FEED_SET, PWR_SET and LINK_SERVICE: the feed is noted; steps and states are asked of every die named; a row's links go into
service with its lasers off, and train again once its latch is closed on a valid cartridge (R317, R363, R423, R432, R454). -/
def Obligations.ModuleCommandsTakeEffect : Prop :=
  ∀ (s : State) (p : Fin 18) (k : Pkt) (b : List Byte), b = k.params →
    (Takes s p k 0x0502 →
      Answers s (.feedSet p) p k { s with torter := { s.torter with feed := BitVec.ofNat 16 (leAt b 0 2) } } 0 [])
    ∧ (∀ step : BitVec 3, Takes s p k 0x0500 → leAt b 0 8 < 2 ^ ndie s → step.toNat ≤ 5 → leAt b 8 1 = 128 + 16 * step.toNat →
      leAt b 9 1 = 0xFF →
      ∃ u, Answers s (.pwrSet p) p k u 0 []
        ∧ (∀ d : Die, d.val ∈ maskDies s (leAt b 0 8) → rf u (pwrBlk d.val) DVFS_CTRL_REQ = step.toNat
          ∧ rf u (pwrBlk d.val) ⟨8, 1, 4⟩ = leAt b 11 1 % 16 ∧ (d, step) ∈ u.supply.modReqs)
        ∧ OnlyRegs s u ((maskDies s (leAt b 0 8)).flatMap fun d => [pwrBlk d + 8, pwrBlk d + DVFS_CTRL_REQ.off])
        ∧ u = { s with regs := u.regs, supply := u.supply })
    ∧ (∀ st, Takes s p k 0x0500 → leAt b 0 8 < 2 ^ ndie s → 1 ≤ st → st ≤ 3 → leAt b 8 1 = 8 + st → leAt b 9 1 = 0xFF →
      (∀ d ∈ maskDies s (leAt b 0 8), pwState s d = 0 ∧ (getPow s d).entering = none ∧ (getPow s d).exits = []
        ∧ (getPow s d).waiting = []) →
      ∃ u, Answers s (.pwrSet p) p k u 0 []
        ∧ ∀ d ∈ maskDies s (leAt b 0 8), rf u (pwrBlk d) PWR_MODE_TARGET = st ∧ rfb u (pwrBlk d) PWR_STATUS_ENTERING = true
          ∧ (getPow u d).entering = some (BitVec.ofNat 3 st)
          ∧ regWord u (pwrBlk d + PWR_CNT_ENTRY.off) = regWord s (pwrBlk d + PWR_CNT_ENTRY.off) + 1
          ∧ ∀ c : Cl, rfb u (dmaBlk d c.val) DMA_CTRL_PAUSEALL = true)
    ∧ (Takes s p k 0x0500 → leAt b 0 8 < 2 ^ ndie s → leAt b 8 1 = 8 → leAt b 9 1 = 0xFF →
      (∀ d ∈ maskDies s (leAt b 0 8), pwState s d = 0 ∧ (getPow s d).entering = none ∧ (getPow s d).exits ≠ []
        ∧ (getPow s d).waiting.length < 4) →
      ∃ u, Answers s (.pwrSet p) p k u 0 []
        ∧ ∀ d ∈ maskDies s (leAt b 0 8), getPow u d = { getPow s d with waiting := (getPow s d).waiting ++ [0] }
          ∧ rfb u (pwrBlk d) PWR_STATUS_PENDING_ON = true)
    ∧ (Takes s p k 0x0500 → (2 ^ ndie s ≤ leAt b 0 8 ∨ leAt b 8 1 % 16 = 14 ∨ leAt b 8 1 % 16 = 15) →
      Answers s (.pwrSet p) p k s scINVALID_PARAM [])
    ∧ ∀ r, Takes s p k 0x0901 → r = leAt b 0 1 →
      (nrow s ≤ r → Answers s (.linkService p) p k s scINVALID_PARAM [])
      ∧ (r < nrow s → leAt b 1 1 = 0 → ∃ u, Answers s (.linkService p) p k u 0 []
        ∧ getRow u r = { getRow s r with service := true, lasersOff := true }
        ∧ (∀ e : Die, lkState u e.val = if e.val / 6 = r then 5 else lkState s e.val)
        ∧ (∀ e : Die, e.val / 6 = r → (linkAt u e).phase = .idle)
        ∧ u = { s with regs := u.regs, links := u.links, rows := u.rows })
      ∧ (r < nrow s → leAt b 1 1 ≠ 0 → (getRow s r).latchOpen = true → Answers s (.linkService p) p k s scINVALID_PARAM [])
      ∧ (r < nrow s → leAt b 1 1 ≠ 0 → (getRow s r).latchOpen = false → cartridgeOk s r = true →
        ∃ u, Answers s (.linkService p) p k u 0 []
          ∧ getRow u r = { getRow s r with service := false, lasersOff := false }
          ∧ (∀ e : Die, e.val / 6 = r → (getRow s r).lost < 2 → lkState s e.val = 5 → rfb s (linkBlk e.val) LK_CTRL_ENABLE = true →
            lkState u e.val = 1
              ∧ linkAt u e = { signalPhase (linkAt s e) false with attempts := 0, incompatible := false })
          ∧ u = { s with regs := u.regs, links := u.links, rows := u.rows })
      ∧ (r < nrow s → leAt b 1 1 ≠ 0 → (getRow s r).latchOpen = false → cartridgeOk s r = false →
        ∃ u, Answers s (.linkService p) p k u scSIGNATURE_INVALID [] ∧ getRow u r = getRow s r ∧ u.mem = s.mem)

/-- PWR_SET to Sleep while a stall has an open step or is held, or to Standby while a stall is formed, is refused with STALL_BUSY;
to either without every die of the module it is refused with INVALID_PARAM (R421). A request that also breaks R432 gets one of
the two. -/
def Obligations.SleepAndStandbyAreRefused : Prop :=
  ∀ (s : State) (p : Fin 18) (k : Pkt) (b : List Byte) (st : Nat), b = k.params → Takes s p k 0x0500 → (st = 4 ∨ st = 5) →
    leAt b 8 1 % 16 = 8 + st →
    ((∃ d < ndie s, (leAt b 0 8).testBit d = false) → Answers s (.pwrSet p) p k s scINVALID_PARAM [])
    ∧ ((∃ g x, getStall s g = some x ∧ (st = 5 ∨ x.openStep.isSome = true ∨ x.mode = .held)) →
      (Answers s (.pwrSet p) p k s scINVALID_PARAM [] ∨ Answers s (.pwrSet p) p k s scSTALL_BUSY [])
      ∧ (leAt b 0 8 = 2 ^ ndie s - 1 → (leAt b 8 1 < 128 ∨ leAt b 8 1 / 16 % 8 ≤ 5) →
        (leAt b 9 1 = 0xFF ∨ domSwitchable s (leAt b 9 1) = true) →
        (st = 4 → saveAreaOk s (leAt b 16 8) (List.range (ndie s)) = true) →
        Answers s (.pwrSet p) p k s scSTALL_BUSY []))

/-- TOPO_LOAD puts a map that passes its checks in force: every die takes its logical number, the epoch and the route of fewest
hops to each module, unless that would lead over a miswired link; a link that is up is compared with the new map (R331); the
command is refused while a stall across modules has an open step, and waits for links that still hold packets
(R334-R338, R477). -/
def Obligations.TopologyGivesEveryDieItsRoutes : Prop :=
  ∀ (s : State) (p : Fin 18) (k : Pkt) (w n : Nat), w = leAt k.params 0 8 → n = leAt k.params 8 4 →
    (Takes s p k 0x0902 → redrawBusy s = true → Answers s (.topoLoad p) p k s scSTALL_BUSY [])
    ∧ (Takes s p k 0x0902 → redrawBusy s = false → woffOk s w n = false → Answers s (.topoLoad p) p k s scINVALID_PARAM [])
    ∧ ∀ v t, Takes s p k 0x0902 → redrawBusy s = false → woffOk s w n = true → winRead s w n = (v, some t) →
      (mapOk t Config.position (rf s (linkBlk 0) LK_EPOCH_EPOCH) = false →
        Answers s (.topoLoad p) p k v scINVALID_PARAM [])
      ∧ (mapOk t Config.position (rf s (linkBlk 0) LK_EPOCH_EPOCH) = true → (∃ d < ndie s, linkBusy v d = true) →
        ∃ x, exec (.topoLoad p) s = .next x ∧ (getPath x p.val).current = some k ∧ x.torter.modBusy = some p
          ∧ x.torter.topo = s.torter.topo ∧ x.mem = v.mem)
      ∧ (mapOk t Config.position (rf s (linkBlk 0) LK_EPOCH_EPOCH) = true → (∀ d < ndie s, linkBusy v d = false) →
        ∃ u own, Answers s (.topoLoad p) p k u 0 [] ∧ u.torter.topo = t
          ∧ own = (List.range 512).find? (fun l => placeOf t l == some Config.position)
          ∧ (∀ d < ndie s, noLmod u d = own.isNone ∧ lmod u d = own.getD 0
            ∧ rf u (linkBlk d) LK_EPOCH_EPOCH = leAt t 4 4
            ∧ (lkState s d = 3 → (rfb u (linkBlk d) LK_STATUS_MISWIRED = true ↔ ¬ WiredAs v t d))
            ∧ ∀ m < 512, routeRow u d m
              = (chooseRow (d / 6) (((placeOf t m).bind (nextRows t Config.position)).getD [])).filter
                  fun r => !rfb u (linkBlk (6 * r + d % 6)) LK_STATUS_MISWIRED)
          ∧ u.mem = v.mem ∧ u.cores = v.cores ∧ u.links = v.links)

/-- FW_STAGE writes the bank that is not ACTIVE and, once the object is whole, stages it or erases it; FW_ACTIVATE boots a STAGED
bank on trial, and commits it with the rollback counter raised (R438, R439, R452, R453). -/
def Obligations.FirmwareIsStagedTriedAndCommitted : Prop :=
  ∀ (s : State) (p : Fin 18) (k : Pkt) (b bs all : List Byte) (i : Nat), b = k.params → i = stageBank s →
    bs = slice b 16 (leAt b 8 4) → i < s.secure.banks.length →
    (Takes s p k 0x0800 → s.secure.recovery = false → i = s.secure.running →
      Answers s (.fwStage p) p k s scINVALID_PARAM [])
    ∧ (Takes s p k 0x0800 → (s.secure.recovery = true ∨ i ≠ s.secure.running) → leAt b 0 1 % 2 = 1 →
      ((leAt b 4 4 = 0 ∧ all = bs) ∨ (leAt b 4 4 = (getBank s i).bytes.length ∧ leAt b 4 4 ≠ 0
        ∧ all = (getBank s i).bytes ++ bs)) →
      ((all.length < 4096 ∨ all.length < objectLen all) → ∃ u, Answers s (.fwStage p) p k u 0 []
        ∧ (getBank u i).bytes = all ∧ (∀ j, j ≠ i → getBank u j = getBank s j)
        ∧ u = { s with secure := { s.secure with banks := u.secure.banks } })
      ∧ (4096 ≤ all.length → objectLen all ≤ all.length →
        (objectValid s.secure 1 (all.take (objectLen all)) = false →
          ∃ u, Answers s (.fwStage p) p k u scSIGNATURE_INVALID [] ∧ getBank u i = Bank.none)
        ∧ (objectValid s.secure 1 (all.take (objectLen all)) = true → leAt all 8 4 < s.secure.counter.toNat →
          ∃ u, Answers s (.fwStage p) p k u scROLLBACK_REJECTED [] ∧ getBank u i = Bank.none)
        ∧ (objectValid s.secure 1 (all.take (objectLen all)) = true → s.secure.counter.toNat ≤ leAt all 8 4 →
          ∃ u, Answers s (.fwStage p) p k u 0 [] ∧ (getBank u i).state = .staged ∧ (getBank u i).bytes = all
            ∧ (getBank u i).svn.toNat = leAt all 8 4)))
    ∧ (Takes s p k 0x0801 → leAt b 0 1 % 4 = 0 → bankIn s .staged = none →
      Answers s (.fwActivate p) p k s scFW_NOT_STAGED [])
    ∧ (Takes s p k 0x0801 → leAt b 0 1 % 4 = 0 → (bankIn s .staged).isSome = true → stalls s ≠ [] →
      Answers s (.fwActivate p) p k s scSTALL_BUSY [])
    ∧ (∀ j, Takes s p k 0x0801 → leAt b 0 1 % 4 = 0 → bankIn s .staged = some j → stalls s = [] → bankIn s .trial = none →
      ∃ t, exec (.fwActivate p) s = .next t ∧ getBank t j = { getBank s j with state := .trial }
        ∧ t.secure.trialBoot = false ∧ t.secure.stage = 0 ∧ t.secure.resetCause = 3 ∧ t.regs = [] ∧ t.mem = []
        ∧ t.secure.counter = s.secure.counter)
    ∧ (Takes s p k 0x0801 → leAt b 0 1 % 4 ≠ 0 → (s.secure.recovery = true ∨ (getBank s s.secure.running).state ≠ .trial) →
      Answers s (.fwActivate p) p k s scINVALID_PARAM [])
    ∧ ∀ r o, r = s.secure.running → o = getBank s (1 - r) → Takes s p k 0x0801 → leAt b 0 1 % 4 ≠ 0 →
      s.secure.recovery = false → (getBank s r).state = .trial →
      (s.secure.counter.toNat < (getBank s r).svn.toNat → 1024 ≤ s.secure.raises →
        Answers s (.fwActivate p) p k s scROLLBACK_REJECTED [])
      ∧ ((s.secure.counter.toNat < (getBank s r).svn.toNat → s.secure.raises < 1024) →
        ∃ u c, c = max s.secure.counter.toNat (getBank s r).svn.toNat ∧ Answers s (.fwActivate p) p k u 0 []
          ∧ (getBank u r) = { getBank s r with state := .active } ∧ u.secure.counter.toNat = c
          ∧ (o.state = .active → (getBank u (1 - r)).state = if o.svn.toNat < c then .revoked else .staged)
          ∧ (o.state ≠ .active → getBank u (1 - r) = o)
          ∧ u.secure.raises = s.secure.raises + (if s.secure.counter.toNat < (getBank s r).svn.toNat then 1 else 0)
          ∧ u = { s with secure := u.secure })

/-! SPDM and IDE keys (R437, R449-R451). -/

/-- The responder serves from B4 on and not in recovery; each request is answered as R450 and R451 say, and a signed answer, a key
exchange and a key need what they rest on: ML-DSA-65 (and ML-KEM-768 for the key exchange) negotiated at version 1.4, one of two sessions, an established session.
-/
def Obligations.SpdmRequestsAreAnswered : Prop :=
  ∀ (s : State) (req : List Byte),
    (doeServed s = false → ∀ (v : Byte) (offer : SpdmOffer) (ok signed : Bool) (slot : BitVec 4) (off len index n : Nat) (o : Option Nat)
      (stream : Fin 4) (key : List Byte),
      ∀ i ∈ [Instr.getVersion req, .getCapabilities v req, .negotiateAlgorithms offer req, .getDigests req,
          .getCertificate slot off len req, .challenge req, .getMeasurements index signed req, .keyExchange req,
          .finish n ok req, .keyUpdate n req, .heartbeat n req, .endSession n req, .keyProg o stream key],
        exec i s = .next s)
    ∧ (doeServed s = true →
      (∃ t, exec (.getVersion req) s = .next t ∧ SpdmAnswer s t 0x84 req [0x12, 0x13, 0x14] ∧ t.secure = s.secure)
      ∧ (∀ v ∈ ([0x12, 0x13, 0x14] : List Byte), ∃ t, exec (.getCapabilities v req) s = .next t ∧ SpdmAnswer s t 0xE1 req []
        ∧ t.secure = { s.secure with spdmVersion := some v, spdmAlgs := ⟨false, false, false, false⟩ })
      ∧ (∀ v : Byte, v ∉ ([0x12, 0x13, 0x14] : List Byte) → exec (.getCapabilities v req) s = spdmError s erVersion)
      ∧ (∀ (offer : SpdmOffer) (new : Bool), new = (s.secure.spdmVersion == some 0x14) →
        ∃ t, exec (.negotiateAlgorithms offer req) s = .next t
        ∧ SpdmAnswer s t 0xE3 req ([offer.dsa && new, offer.kem && new, offer.sha3, offer.aes].map fun b =>
            BitVec.ofNat 8 (b2n b))
        ∧ t.secure = { s.secure with spdmAlgs := ⟨offer.dsa && new, offer.kem && new, offer.sha3, offer.aes⟩ })
      ∧ (∃ t, exec (.getDigests req) s = .next t
        ∧ SpdmAnswer s t 0x81 req (1 :: leBytes 48 (sha3x384 Config.certChain).toNat) ∧ t.secure = s.secure)
      ∧ (∀ off len, ∃ t, exec (.getCertificate 0 off len req) s = .next t
        ∧ SpdmAnswer s t 0x82 req (slice Config.certChain off len) ∧ t.secure = s.secure)
      ∧ (∀ (slot : BitVec 4) off len, slot ≠ 0 → exec (.getCertificate slot off len req) s = spdmError s erInvalidRequest)
      ∧ (s.secure.spdmAlgs.dsa = true → ∃ t, exec (.challenge req) s = .next t
        ∧ SpdmAnswer s t 0x83 req (leBytes 48 (sha3x384 Config.certChain).toNat ++ spdmSign s 0x83 req) ∧ t.secure = s.secure)
      ∧ ((s.secure.spdmAlgs.dsa = false ∨ s.secure.spdmAlgs.kem = false) →
        exec (.keyExchange req) s = spdmError s erUnsupported)
      ∧ (s.secure.spdmAlgs.dsa = false → exec (.challenge req) s = spdmError s erUnsupported
        ∧ ∀ index, exec (.getMeasurements index true req) s = spdmError s erUnsupported)
      ∧ (∀ index signed content, (signed = true → s.secure.spdmAlgs.dsa = true) →
        ((1 ≤ index ∧ index ≤ 6 ∧ content = leBytes 64 (s.secure.mrs.getD (index - 1) 0).toNat)
          ∨ (index = 0 ∧ content = [6]) ∨ (index = 255 ∧ content = ((List.range 6).map (mrBytes s)).flatten)) →
        ∃ t, exec (.getMeasurements index signed req) s = .next t
          ∧ SpdmAnswer s t 0xE0 req (content ++ (if signed then spdmSign s 0xE0 req else [])) ∧ t.secure = s.secure)
      ∧ (∀ index signed, (signed = true → s.secure.spdmAlgs.dsa = true) → 7 ≤ index → index ≠ 255 →
        exec (.getMeasurements index signed req) s = spdmError s erInvalidRequest)
      ∧ (s.secure.spdmAlgs.dsa = true → s.secure.spdmAlgs.kem = true → s.secure.sessions.length < 2 →
        ∃ t, exec (.keyExchange req) s = .next t
        ∧ SpdmAnswer s t 0xE4 req (slice (Config.mlKemCipher req s.fresh) 0 1088 ++ spdmSign s 0xE4 req)
        ∧ t.secure = { s.secure with
            sessions := s.secure.sessions ++ [⟨s.secure.nextSession, false, slice (Config.mlKemKey req s.fresh) 0 32⟩]
            nextSession := s.secure.nextSession + 1 })
      ∧ (s.secure.spdmAlgs.dsa = true → s.secure.spdmAlgs.kem = true → 2 ≤ s.secure.sessions.length → exec (.keyExchange req) s = spdmError s erSessionLimit)
      ∧ ∀ (n : Nat) (key : List Byte) (stream : Fin 4),
        (∀ x ok, findSession s n = some x → x.established = false → ok = true → ∃ t, exec (.finish n ok req) s = .next t
          ∧ SpdmAnswer s t 0xE5 req [] ∧ t.secure = { s.secure with
              sessions := s.secure.sessions.map fun z => if z.id = n then { z with established := true } else z })
        ∧ (∀ x, findSession s n = some x → x.established = false → ∃ t, exec (.finish n false req) s = .next t
          ∧ t.outbox = s.outbox ++ [.spdmError erDecrypt]
          ∧ t.secure = { s.secure with sessions := s.secure.sessions.filter fun y => y.id != n })
        ∧ (sessionUp s n = true →
          (∃ t, exec (.keyUpdate n req) s = .next t ∧ SpdmAnswer s t 0xE9 req [] ∧ t.secure = { s.secure with
            sessions := s.secure.sessions.map fun z => if z.id = n then { z with key := Config.nextKey z.key } else z })
          ∧ (∃ t, exec (.heartbeat n req) s = .next t ∧ SpdmAnswer s t 0xE8 req [] ∧ t.secure = s.secure)
          ∧ (∃ t, exec (.endSession n req) s = .next t ∧ SpdmAnswer s t 0xEC req []
            ∧ t.secure = { s.secure with sessions := s.secure.sessions.filter fun y => y.id != n })
          ∧ ∃ t, exec (.keyProg (some n) stream key) s = .next t ∧ SpdmAnswer s t 0xFE key []
            ∧ t.secure = { s.secure with ideKeys := tset s.secure.ideKeys stream.val key })
        ∧ (sessionUp s n = false → exec (.keyUpdate n req) s = spdmError s erInvalidSession
          ∧ exec (.heartbeat n req) s = spdmError s erInvalidSession
          ∧ exec (.endSession n req) s = spdmError s erInvalidSession
          ∧ exec (.keyProg (some n) stream key) s = spdmError s erInvalidSession)
        ∧ exec (.keyProg none stream key) s = spdmError s erUnexpected)

/-! Supply, clock, reset and boot (R435, R441-R445, R460-R464). -/

/-- The module resets when its input or its reference clock goes away, loses everything that is not in flash when the supply does,
powers up rail by rail, and counts the seconds of its pulse (R435, R460-R464). Boot goes from B1 to B7 while supply and clock
are in range and the reset input is released, measures what it loads, and stops in recovery where a stage fails; at B6 every
die shows its capabilities, and at B7 the module is READY (R199, R441-R446). -/
def Obligations.SupplyResetAndBootStages : Prop :=
  (∀ s : State,
     (s.supply.powerGood = true → ∃ t, exec .resetNAssert s = .next t ∧ ModuleReset s t 1 ∧ t.supply.resetLow = true)
     ∧ (s.supply.powerGood = true → ∃ t, exec .refclkLoss s = .next t ∧ ModuleReset s t 2 ∧ t.supply.refclk = false)
     ∧ (s.supply.powerGood = false →
       exec .resetNAssert s = .next { s with supply := { s.supply with resetLow := true } }
       ∧ exec .refclkLoss s = .next { s with supply := { s.supply with refclk := false } })
     ∧ exec .resetNRelease s = .next { s with supply := { s.supply with resetLow := false } }
     ∧ exec .refclkReturn s = .next { s with supply := { s.supply with refclk := true } }
     ∧ exec .pwrEnAssert s = .next { s with supply := { s.supply with enabled := true } }
     ∧ exec .inputVoltageInRange s = .next { s with supply := { s.supply with inputOk := true, waitRange := false } }
     ∧ exec .tpulseEdge s = .next { s with supply := { s.supply with pulse := s.supply.pulse + 1, ns := 0 } }
     ∧ (∀ cause, ∃ t, exec (.powerDownTrigger cause) s = .next t ∧ ModuleReset s t 0 ∧ t.supply.powerGood = false
       ∧ t.supply.rails = 0 ∧ (cause = .disabled → t.supply.enabled = false ∧ t.supply.waitRange = s.supply.waitRange)
       ∧ (cause ≠ .disabled → t.supply.enabled = s.supply.enabled ∧ t.supply.inputOk = false ∧ t.supply.waitRange = true))
     ∧ (s.supply.enabled = true → s.supply.inputOk = true → s.supply.waitRange = false → s.supply.rails < 3 →
       exec .powerUpStage s = .next { s with supply := { s.supply with
         rails := s.supply.rails + 1, powerGood := decide (s.supply.rails + 1 = 3) } })
     ∧ ((s.supply.enabled = false ∨ s.supply.inputOk = false ∨ s.supply.waitRange = true ∨ 3 ≤ s.supply.rails) →
       exec .powerUpStage s = .next s))
  ∧ (∀ (s : State) (r : BootResult),
       (bootRuns s = false → exec (.bootStage r) s = .next s)
       ∧ (bootRuns s = true →
         ((s.secure.stage = 0 ∧ r.ok = false ∨ s.secure.stage = 1 ∧ flashOk s r = false) →
           ∃ t, exec (.bootStage r) s = .next t ∧ t.secure.recovery = true ∧ rfb t bar0Blk MCI_STATUS_FATAL = true ∧ t.secure.stage = s.secure.stage)
         ∧ (∀ c, s.secure.stage = 0 → r.ok = true → c ∈ s.secure.counterCopies →
           (∀ e ∈ s.secure.counterCopies, e = c ∨ e.1 < c.1) →
           exec (.bootStage r) s = .next { s with secure := { s.secure with counter := c.2, stage := 1 } })
         ∧ (s.secure.stage = 1 → flashOk s r = true → ∃ t, exec (.bootStage r) s = .next t ∧ t.secure.stage = 2
           ∧ t.secure.variant = Variant.ofBody (objectBody s.secure.variantObj) ∧ t.secure.extCount = s.secure.extCount + s.secure.signers.length + 3 ∧ t = { s with secure := t.secure })
         ∧ (∀ i, s.secure.stage = 2 → bankIn s .trial = none → bankIn s .active = some i → bankRuns s i = true →
           ∃ t, exec (.bootStage r) s = .next t ∧ t.secure.stage = 3 ∧ t.secure.running = i
             ∧ t.secure.extCount = s.secure.extCount + 1 ∧ t.secure.banks = s.secure.banks ∧ t = { s with secure := t.secure })
         ∧ (∀ i, s.secure.stage = 2 → bankIn s .trial = none → bankIn s .active = some i → bankRuns s i = false →
           bankRuns s (1 - i) = false → ∃ t, exec (.bootStage r) s = .next t ∧ t.secure.recovery = true
             ∧ rfb t bar0Blk MCI_STATUS_FATAL = true)
         ∧ (s.secure.stage = 3 → ∃ t, exec (.bootStage r) s = .next t ∧ t.secure.stage = 4
           ∧ rf t bar0Blk MCI_ID_FWREV = (runningBank s).fwrev.toNat ∧ rf t bar0Blk MCI_ID_VMIN = (runningBank s).vmin.toNat
           ∧ rf t bar0Blk MCI_ID_VMAX = (runningBank s).vmax.toNat)
         ∧ (s.secure.stage = 4 →
           exec (.bootStage r) s = .next { s with secure := { s.secure with
             degraded := r.failed, coreMap := coreRepairs (objectBody s.secure.repairObj)
             colMap := columnRepairs (objectBody s.secure.repairObj), stage := 5 } })
         ∧ (s.secure.stage = 5 → ∃ t, exec (.bootStage r) s = .next t ∧ t.secure.stage = 6 ∧ t.mem = s.mem
           ∧ ∀ d < ndie s,
             (r.failed.contains d = true → regWord t (dieBlk d + 8) = 0)
             ∧ (r.failed.contains d = false →
               rf t (dieBlk d) DIE_ID_DIE = d ∧ rf t (dieBlk d) DIE_ID_X = d % 6 ∧ rf t (dieBlk d) DIE_ID_Y = d / 6
               ∧ rfb t (dieBlk d) DIE_CAP_LINK = !r.noLink.contains d ∧ rfb t (dieBlk d) DIE_CAP_GCMP = hasGc s ∧ rfb t (dieBlk d) DIE_CAP_PLU_LOCAL = hasPlu s d
               ∧ (∀ c < 16, (rf t (dieBlk d) DIE_CAP_CLDEG).testBit c = s.secure.degraded.contains (d * 16 + c))
               ∧ (∀ k < 4, (rf t (dieBlk d) DIE_CAP_HBMOK).testBit k = !r.badStacks.contains (d * 4 + k)
                 ∧ rfb t (hbmBlk d k) HBM_STATUS_UP = !r.badStacks.contains (d * 4 + k)
                 ∧ (rf t (meshBlk d) MESH_STATUS_ABSENT).testBit k = !edgePresent s d k)))
         ∧ (s.secure.stage = 6 → ∃ t, exec (.bootStage r) s = .next t ∧ t.secure.stage = 7
           ∧ rfb t bar0Blk MCI_STATUS_READY = true ∧ t.mem = s.mem
           ∧ ∀ x < nrow s, (getRow t x).lasersOff = ((getRow s x).lasersOff && !cartridgeOk s x)
             ∧ (cartridgeOk s x = false → (getRow t x).service = true ∧ ∀ d ∈ rowDies x, lkState t d = 5)
             ∧ (cartridgeOk s x = true → (getRow s x).lost < 2 → ∀ d ∈ rowDies x, rfb s (linkBlk d) LK_CTRL_ENABLE = true →
               lkState s d ≠ 5 → lkState t d = 1))
         ∧ (7 ≤ s.secure.stage → exec (.bootStage r) s = .next s)))

/-! Power (R410-R431, R459, R468). -/

/-- A step request waits for its grant, which takes the permitted step nearest to it, two at most from every clocked neighbour,
and clamps where that is another; the ramp's end makes it the current step (R412-R415, R428). A die too hot is capped a step
slower or, at 110 °C, loses its core supply; ten cool evaluations raise the cap. A lug over its current caps every die after
ten samples, and an open lug throttles them. A switched domain takes effect once its rails are as asked, and an outlet above
55 °C raises a warning (R416, R417, R425, R459, R468). -/
def Obligations.StepsTemperatureCurrentAndDomains : Prop :=
  (∀ (s : State) (d : Die) (b : Nat), dieOk s d.val = true → b = pwrBlk d.val →
     (∀ step : BitVec 3, step.toNat ≤ 5 → ∃ t, exec (.dvfsRequest d step) s = .next t ∧ pwrField t d DVFS_CTRL_REQ = step.toNat
       ∧ powAt t d = { powAt s d with request := some step } ∧ OnlyRegs s t [b + DVFS_CTRL_REQ.off]
       ∧ t = { s with regs := t.regs, dies := t.dies })
     ∧ (∀ step : BitVec 3, 6 ≤ step.toNat → exec (.dvfsRequest d step) s = .next s)
     ∧ ((∀ k < 37, portAsks s k = false) → exec .powerRequestGrant s = .next s)
     ∧ (∀ r want n, rotFirst 37 s.supply.arb (portAsks s) = some d.val → (powAt s d).rampAsked = false →
       (powAt s d).request = some r → want = max r.toNat (capStep s d.val) → n = nearestStep s d.val want →
       (n = curStep s d.val ∨ (n ≤ 5 ∧ capStep s d.val ≤ n ∧ stepPermitted s d.val n = true))
       ∧ ∃ t, exec .powerRequestGrant s = .next t ∧ t.supply = { s.supply with arb := (d.val + 1) % 37 }
         ∧ powAt t d = { powAt s d with
             request := none, ramp := if n = curStep s d.val then none else some (BitVec.ofNat 3 n) }
         ∧ (n ≠ curStep s d.val → pwrField t d DVFS_STATUS_RAMPING = 1)
         ∧ (n ≠ want → pwrField t d DVFS_STATUS_CLAMPED = 1
           ∧ regWord t (b + PWR_CNT_CLAMP.off) = regWord s (b + PWR_CNT_CLAMP.off) + 1)
         ∧ (n = want → n = curStep s d.val → pwrField t d DVFS_STATUS_CLAMPED = 0)
         ∧ OnlyRegs s t [b + DVFS_STATUS_CUR.off, b + PWR_CNT_CLAMP.off])
     ∧ (rotFirst 37 s.supply.arb (portAsks s) = some d.val → (powAt s d).rampAsked = true → rampsFromOff s < 12 →
       ∃ t, exec .powerRequestGrant s = .next t ∧ powAt t d = { powAt s d with rampAsked := false, ramping := true }
         ∧ t = { s with dies := t.dies, supply := { s.supply with arb := (d.val + 1) % 37 } })
     ∧ ((powAt s d).ramp = none → exec (.dvfsRampDone d) s = .next s)
     ∧ (∀ x, (powAt s d).ramp = some x → ∃ t, exec (.dvfsRampDone d) s = .next t
       ∧ pwrField t d DVFS_STATUS_CUR = x.toNat ∧ pwrField t d DVFS_STATUS_RAMPING = 0 ∧ (powAt t d).ramp = none
       ∧ (x.toNat = max (reqStep s d.val) (capStep s d.val) → pwrField t d DVFS_STATUS_CLAMPED = 0)
       ∧ OnlyRegs s t [b + DVFS_STATUS_CUR.off] ∧ t = { s with regs := t.regs, dies := t.dies }))
  ∧ (∀ s : State,
       (∀ (tj : List Int), ∃ t, exec (.thermalEvaluation tj) s = .next t ∧ t.mem = s.mem
         ∧ ∀ d : Die, dieOk s d.val = true →
           pwrField t d PWR_TEMP_TJ = (BitVec.ofInt 16 (tj.getD d.val 0)).toNat
           ∧ ((powAt s d).tripped = false → (powAt s d).hbm ≠ .off → 1760 ≤ tj.getD d.val 0 → (powAt t d).tripped = true
             ∧ (powAt t d).vcore = .off ∧ ∀ n : Fin 256, coreOutstanding s d.val n.val = [] → coreState t d.val n.val = stIDLE)
           ∧ (clocked s d.val = true → 1600 ≤ tj.getD d.val 0 → tj.getD d.val 0 < 1760 → (powAt s d).capT.toNat < 5 →
             (powAt t d).capT.toNat = (powAt s d).capT.toNat + 1 ∧ (powAt t d).cool = 0
             ∧ pwrField t d DVFS_STATUS_CAP = max ((powAt s d).capT.toNat + 1) (powAt s d).capL.toNat
             ∧ regWord t (pwrBlk d.val + PWR_CNT_THROTTLE.off) = regWord s (pwrBlk d.val + PWR_CNT_THROTTLE.off) + 1)
           ∧ (clocked s d.val = false → tj.getD d.val 0 < 1760 → (powAt t d).capT = (powAt s d).capT ∧ (powAt t d).tripped = (powAt s d).tripped))
       ∧ (∀ (tj : List Int) (d : Die), dieOk s d.val = true → (∀ e < ndie s, tj.getD e 0 < 1760) → clocked s d.val = true →
         0 < (powAt s d).capT.toNat → hotter s tj d.val ≤ 320 → tj.getD d.val 0 < 1600 →
         ((powAt s d).capHot = false ∨ tj.getD d.val 0 < 1520) →
         ∃ t, exec (.thermalEvaluation tj) s = .next t
           ∧ (9 ≤ (powAt s d).cool → (powAt t d).capT.toNat = (powAt s d).capT.toNat - 1)
           ∧ ((powAt s d).cool < 9 → (powAt t d).capT = (powAt s d).capT ∧ (powAt t d).cool = (powAt s d).cool + 1))
       ∧ (∀ ma : List Nat, s.supply.lugOver = false → s.supply.lugOpen = false → (ma.sum ≤ 100000 ∨ ∀ x ∈ ma, 5000 ≤ x) →
         ((∀ x ∈ ma, x ≤ 130000) → exec (.lugMonitor ma) s = .next { s with supply := { s.supply with lugTicks := 0 } })
         ∧ ((∃ x ∈ ma, 130000 < x) → s.supply.lugTicks < 9 → exec (.lugMonitor ma) s
           = .next { s with supply := { s.supply with lugTicks := s.supply.lugTicks + 1 } })
         ∧ ((∃ x ∈ ma, 130000 < x) → 9 ≤ s.supply.lugTicks → ∃ t, exec (.lugMonitor ma) s = .next t ∧ t.supply.lugOver = true
           ∧ ∀ d : Die, dieOk s d.val = true → (powAt t d).capL.toNat = min 5 ((getPow s 0).capL.toNat + 1)))
       ∧ (∀ ma : List Nat, s.supply.lugOver = false → s.supply.lugOpen = false → 100000 < ma.sum → ma.sum ≤ 375000 →
         (∃ x ∈ ma, x < 5000) → (∀ x ∈ ma, x ≤ 130000) →
         ∃ t, exec (.lugMonitor ma) s = .next t ∧ t.supply.lugOpen = true
           ∧ ∀ d : Die, dieOk s d.val = true → pwrField t d DVFS_STATUS_THROTTLED = 1)
       ∧ (∀ k : Fin 100, tget none s.supply.domSwitching k.val = none → exec (.domainSwitchDone k) s = .next s)
       ∧ (∀ (k : Fin 100) (on : Bool), tget none s.supply.domSwitching k.val = some on → tget [] s.supply.domWaiting k.val = [] →
         ∃ t, exec (.domainSwitchDone k) s = .next t ∧ (k.val ∈ t.supply.domOff ↔ on = false)
           ∧ (∀ j, j ≠ k.val → (j ∈ t.supply.domOff ↔ j ∈ s.supply.domOff)) ∧ tget none t.supply.domSwitching k.val = none
           ∧ t = { s with supply := t.supply })
       ∧ ∀ outlet : Int, ∃ t, exec (.coolantOutletWarning outlet) s = .next t
           ∧ t.supply = { s.supply with outlet := outlet } ∧ (outlet ≤ 880 → t.torter = s.torter)
           ∧ (880 < outlet →
             heldEvents (eventRoom s) (s.torter.events ++ [⟨0x07F1, [0, 0, 0, 0, 0xFF, 0xFF, 0, 0]⟩]) ≤ 256 →
             t.torter.events = s.torter.events ++ [⟨0x07F1, [0, 0, 0, 0, 0xFF, 0xFF, 0, 0]⟩])
           ∧ t = { s with supply := t.supply, torter := t.torter })

/-- PWAIT starts the way to its target, which is passed point by point; a wake before the target undoes the points passed, and one
below Run starts the exit, whose steps end in Run with the channels running again (R422-R426, R428). PWR_CLKSEL takes the PLL
only once it has locked, and a pad group is released only once its domain is on again (R427, R430). -/
def Obligations.PowerStatesClocksAndPads : Prop :=
  (∀ (s : State) (d : Die) (b : Nat), dieOk s d.val = true → b = pwrBlk d.val →
     (∃ t, exec (.pwait d) s = .next t
       ∧ regWord t (b + PWR_CNT_ENTRY.off) = regWord s (b + PWR_CNT_ENTRY.off) + 1
       ∧ ((pwrField s d PWR_MODE_TARGET = 0 ∨ 6 ≤ pwrField s d PWR_MODE_TARGET) → powAt t d = powAt s d)
       ∧ (6 ≤ pwrField s d PWR_MODE_TARGET → pwrField t d PWR_STATUS_BADMODE = 1)
       ∧ (1 ≤ pwrField s d PWR_MODE_TARGET → pwrField s d PWR_MODE_TARGET ≤ 5 → pwState s d.val = 0 →
         (powAt s d).entering = none → (powAt s d).exits = [] →
         powAt t d = { powAt s d with entering := some (BitVec.ofNat 3 (pwrField s d PWR_MODE_TARGET)) }
         ∧ pwrField t d PWR_STATUS_ENTERING = 1 ∧ pwPoint t d.val = 0
         ∧ ∀ c : Cl, rfb t (dmaBlk d.val c.val) DMA_CTRL_PAUSEALL = true))
     ∧ ((powAt s d).entering = none → exec (.entryPoint d) s = .next s)
     ∧ (∀ g k, (powAt s d).entering = some g → (entryPoints g.toNat).find? (fun j => decide (pwPoint s d.val < j)) = some k →
       (k = 1 → quietDie s d.val = false → exec (.entryPoint d) s = .next s)
       ∧ (k = 4 → noneOutstanding s d.val = false → exec (.entryPoint d) s = .next s)
       ∧ (k = 9 → allAtAP8 s = false → exec (.entryPoint d) s = .next s)
       ∧ (k ∈ [1, 2, 4, 5, 6, 7] → (k = 1 → quietDie s d.val = true) → (k = 4 → noneOutstanding s d.val = true) →
         ((entryPoints g.toNat).getLast? ≠ some k → (powAt s d).wake = none →
           ∃ t, exec (.entryPoint d) s = .next t ∧ pwPoint t d.val = k ∧ powBut s t d = passes (powAt s d) k
             ∧ (k = 4 → pwrField t d PWR_STATUS_CLKFOSC = 1 ∧ pwrField t d PWR_CLKSEL_PLL = 0)
             ∧ (k = 6 → pwrField t d PWR_PADHOLD_HBM = 1) ∧ (k = 7 → pwrField t d PWR_PADHOLD_CORE = 1)
             ∧ (k ≠ 6 → t.rows = s.rows) ∧ t = { s with regs := t.regs, dies := t.dies, rows := t.rows })
         ∧ (∀ ev, (entryPoints g.toNat).getLast? ≠ some k → (powAt s d).wake = some ev →
           ∃ t, exec (.entryPoint d) s = .next t ∧ pwPoint t d.val = k ∧ pwrField t d PWR_STATUS_ABORTPT = k
             ∧ pwrField t d PWR_STATUS_WAKESRC = ev.val ∧ pwrField t d PWR_STATUS_ENTERING = 0
             ∧ powBut s t d = takeWake (passes (powAt s d) k) g.toNat (exitSteps ((entryPoints g.toNat).filter (· ≤ k)))
             ∧ regWord t (b + PWR_CNT_ABORT.off) = regWord s (b + PWR_CNT_ABORT.off) + 1)
         ∧ (g.toNat ≤ 3 → (entryPoints g.toNat).getLast? = some k → (powAt s d).wake = none → (powAt s d).waiting = [] →
           ∃ t, exec (.entryPoint d) s = .next t ∧ pwState t d.val = g.toNat ∧ pwPoint t d.val = k
             ∧ pwrField t d PWR_STATUS_ENTERING = 0 ∧ powBut s t d = { passes (powAt s d) k with entering := none }
             ∧ t = { s with regs := t.regs, dies := t.dies })))
     ∧ (∀ ev : Fin 6, (wakeEnabled s d.val ev.val = false → ev ≠ 3 → exec (.wakeEvent d ev) s = .next s)
       ∧ (pwState s d.val = 0 → (powAt s d).entering = none → exec (.wakeEvent d ev) s = .next s)
       ∧ (wakeEnabled s d.val ev.val = true → (powAt s d).exits = [] → pwState s d.val < 4 →
         ((powAt s d).entering.isSome = true → pwPoint s d.val ≠ 8 → (powAt s d).wake = none →
           ∃ t, exec (.wakeEvent d ev) s = .next t ∧ powAt t d = { powAt s d with wake := some ev }
             ∧ pwrField t d PWR_STATUS_PENDING_ON = 1 ∧ t = { s with regs := t.regs, dies := t.dies })
         ∧ ((powAt s d).entering = none → pwState s d.val ≠ 0 → ∃ t, exec (.wakeEvent d ev) s = .next t
           ∧ Leaves s t d ev.val 15 ∧ t = { s with regs := t.regs, dies := t.dies })))
     ∧ (pwState s d.val = 0 → (powAt s d).entering = none → (powAt s d).exits = [] →
       exec (.pwrTimerExpiry d) s = .next s)
     ∧ (pwState s d.val ≠ 0 → (powAt s d).entering = none → (powAt s d).exits = [] → wakeEnabled s d.val 4 = true →
       ∃ t, exec (.pwrTimerExpiry d) s = .next t ∧ Leaves s t d 4 15 ∧ pwrField t d PWR_TIMER_US = 0)
     ∧ (pwState s d.val ≠ 0 → wakeEnabled s d.val 4 = false →
       ∃ t, exec (.pwrTimerExpiry d) s = .next t ∧ pwrField t d PWR_TIMER_US = 0 ∧ OnlyRegs s t [b + PWR_TIMER_US.off]
         ∧ t = { s with regs := t.regs })
     ∧ ((powAt s d).exits = [] → exec (.exitStep d) s = .next s)
     ∧ (∀ rest, (powAt s d).exits = 3 :: rest →
       ((powAt s d).ramping = false → ∃ t, exec (.exitStep d) s = .next t ∧ powAt t d = { powAt s d with rampAsked := true }
         ∧ t = { s with dies := t.dies })
       ∧ ((powAt s d).ramping = true → ∃ t, exec (.exitStep d) s = .next t
         ∧ powAt t d = { powAt s d with exits := rest, ramping := false, vcore := .retention } ∧ t = { s with dies := t.dies }))
     ∧ (∀ rest near, (powAt s d).exits = 5 :: rest → near = nearestStep s d.val (max (curStep s d.val) (capStep s d.val)) →
       stepPermitted s d.val near = true → ∃ t, exec (.exitStep d) s = .next t ∧ curStep t d.val = near
         ∧ pwrField t d DVFS_STATUS_RAMPING = 0
         ∧ powAt t d = { powAt s d with exits := rest, ramp := none, vcore := .on }
         ∧ OnlyRegs s t [b + DVFS_STATUS_CUR.off] ∧ t = { s with regs := t.regs, dies := t.dies })
     ∧ (∀ rest, (powAt s d).exits = 6 :: rest → ∃ t, exec (.exitStep d) s = .next t
         ∧ powAt t d = { powAt s d with exits := rest, fabricStopped := false, hbm := .running } ∧ t = { s with dies := t.dies })
     ∧ (∀ rest, (powAt s d).exits = 7 :: rest → ∃ t, exec (.exitStep d) s = .next t
         ∧ powAt t d = { powAt s d with exits := rest, saved := false } ∧ t = { s with dies := t.dies })
     ∧ (∀ rest, (powAt s d).exits = 2 :: rest → (powAt s d).pllHeld = false → ∃ t, exec (.exitStep d) s = .next t
         ∧ powAt t d = { powAt s d with exits := rest } ∧ pwrField t d PWR_STATUS_PLL_LOCK = 1)
     ∧ (∀ rest, (powAt s d).exits = 8 :: rest → (powAt s d).waiting = [] → (powAt s d).held = [] → ∃ t, exec (.exitStep d) s = .next t
         ∧ powAt t d = { powAt s d with exits := rest } ∧ pwState t d.val = 0 ∧ pwPoint t d.val = 0
         ∧ ∀ c : Cl, rfb t (dmaBlk d.val c.val) DMA_CTRL_PAUSEALL = false))
  ∧ (∀ (s : State) (d : Die) (b : Nat), dieOk s d.val = true → b = pwrBlk d.val →
       (∃ t, exec (.pwrClkselWrite d false) s = .next t ∧ pwrField t d PWR_CLKSEL_PLL = 0 ∧ pwrField t d PWR_STATUS_CLKFOSC = 1
         ∧ powAt t d = { powAt s d with pllHeld := false } ∧ OnlyRegs s t [b + PWR_CLKSEL_PLL.off, b + PWR_STATUS_CLKFOSC.off])
       ∧ (pwrField s d PWR_STATUS_PLL_LOCK = 1 → ∃ t, exec (.pwrClkselWrite d true) s = .next t
         ∧ pwrField t d PWR_CLKSEL_PLL = 1 ∧ pwrField t d PWR_STATUS_CLKFOSC = 0
         ∧ OnlyRegs s t [b + PWR_CLKSEL_PLL.off, b + PWR_STATUS_CLKFOSC.off] ∧ t = { s with regs := t.regs })
       ∧ (pwrField s d PWR_STATUS_PLL_LOCK = 0 → ∃ t, exec (.pwrClkselWrite d true) s = .next t
         ∧ powAt t d = { powAt s d with pllHeld := true } ∧ t = { s with dies := t.dies })
       ∧ ∀ mask : BitVec 5, ∃ t, exec (.padholdRelease d mask) s = .next t
         ∧ (∀ g < 5, (regWord t (b + 0x28)).getLsbD g
           = ((regWord s (b + 0x28)).getLsbD g && (!mask.getLsbD g || groupOff s d.val g)))
         ∧ (∀ g, 5 ≤ g → g < 64 → (regWord t (b + 0x28)).getLsbD g = (regWord s (b + 0x28)).getLsbD g)
         ∧ OnlyRegs s t [b + 0x28] ∧ t = { s with regs := t.regs })

/-- Words written bit by bit from R64, R78-R80, R100, R124, R125, R133, R144, R150 and R284 decode to the instructions they stand
for; a word of a reserved CLASS or OP is none (R65). -/
def Obligations.CoreWordsFromTheSpec : Prop :=
  (∀ c : CoreId, ∀ p ∈ ([
      ((0x40000060000000000000000000000005 : BitVec 128), Instr.movi c ⟨false, 0, false, 0⟩ ⟨3, 0, 0, 0, 0, 5⟩),
      ((0x4192002200400000FFFFFFFFFFFFFFFF : BitVec 128), Instr.alu c ⟨true, 9, false, 0⟩ ⟨1, 2, 0, 0, 64, 18446744073709551615⟩),
      ((0x46000000FF8900000000000000000000 : BitVec 128), Instr.dset c ⟨false, 0, false, 0⟩ ⟨0, 0, 31, 15, 9, 0⟩),
      ((0x6601FC00000000000000000000000000 : BitVec 128), Instr.halt c ⟨false, 0, true, 63⟩ ⟨0, 0, 0, 0, 0, 0⟩),
      ((0x64000087000100000000000300000000 : BitVec 128), Instr.loop c ⟨false, 0, false, 0⟩ ⟨4, 7, 0, 0, 1, 12884901888⟩),
      ((0x50FF0400000000000000000000010005 : BitVec 128), Instr.ssig c ⟨true, 63, true, 1⟩ ⟨0, 0, 0, 0, 0, 65541⟩),
      ((0x56000006000100000000000000000040 : BitVec 128), Instr.retire c ⟨false, 0, false, 0⟩ ⟨0, 6, 0, 0, 1, 64⟩),
      ((0x57000006001100000000000000000000 : BitVec 128), Instr.send c ⟨false, 0, false, 0⟩ ⟨0, 6, 0, 0, 17, 0⟩),
      ((0x70000000000000000000000000000000 : BitVec 128), Instr.wait c ⟨false, 0, false, 0⟩ ⟨0, 0, 0, 0, 0, 0⟩),
      ((0x110002123956FBBC0000000000000000 : BitVec 128), Instr.mmao c ⟨false, 0, false, 0⟩ ⟨2, 1, 2, 3, 4, true, false, true, false, true, 1, 0xBEEF⟩),
      ((0x200000523067C1000112448D03FF0000 : BitVec 128), Instr.vop c ⟨false, 0, false, 0⟩ ⟨5, ⟨1, 3, 0, 1⟩, ⟨4, 31, 0, 1⟩, ⟨0, 0, 0, 0⟩, false, 17, 2, 1, 4660, 1023, 0⟩),
      ((0x220003C7000000000000000000000080 : BitVec 128), Instr.vlpld c ⟨false, 0, false, 0⟩ ⟨15, 7, 0x80⟩),
      ((0x25000048D0BFFF800000000000000000 : BitVec 128), Instr.vopt c ⟨false, 0, false, 0⟩ ⟨1, 2, 3, 4, 5, 16383⟩),
      ((0x33000004600000000081000001FF0080 : BitVec 128), Instr.rsmax c ⟨false, 0, false, 0⟩ ⟨0, ⟨2, 6, 0, 0⟩, ⟨0, 0, 0, 0⟩, ⟨0, 0, 0, 0⟩, false, 8, 1, 0, 0, 511, 128⟩)] : List (BitVec 128 × Instr)), decode c p.1 = some p.2)
  ∧ ∀ c : CoreId, ∀ w ∈ ([
      0x00000000000000000000000000000000,
      0x80000000000000000000000000000000,
      0x4D000000000000000000000000000000,
      0x67000000000000000000000000000000,
      0x71000000000000000000000000000000,
      0x58000000000000000000000000000000] : List (BitVec 128)), decode c w = none
end

