-- ==== Sys2Proof/Laws/State.lean ====
section
/-! SUPPORT. What each update of the state leaves alone: one lemma for each field and update, true by unfolding. -/

namespace Sys2Proof.Machine

variable (s : State)

/-! `setReg`. -/

@[simp] theorem setReg_pending (a : Nat) (w : Word) : (setReg s a w).pending = s.pending := rfl
@[simp] theorem setReg_fresh (a : Nat) (w : Word) : (setReg s a w).fresh = s.fresh := rfl
@[simp] theorem setReg_outbox (a : Nat) (w : Word) : (setReg s a w).outbox = s.outbox := rfl
@[simp] theorem setReg_mem (a : Nat) (w : Word) : (setReg s a w).mem = s.mem := rfl
@[simp] theorem setReg_poison (a : Nat) (w : Word) : (setReg s a w).poison = s.poison := rfl
@[simp] theorem setReg_upsets (a : Nat) (w : Word) : (setReg s a w).upsets = s.upsets := rfl
@[simp] theorem setReg_cores (a : Nat) (w : Word) : (setReg s a w).cores = s.cores := rfl
@[simp] theorem setReg_chans (a : Nat) (w : Word) : (setReg s a w).chans = s.chans := rfl
@[simp] theorem setReg_dmaPtr (a : Nat) (w : Word) : (setReg s a w).dmaPtr = s.dmaPtr := rfl
@[simp] theorem setReg_gcs (a : Nat) (w : Word) : (setReg s a w).gcs = s.gcs := rfl
@[simp] theorem setReg_plus (a : Nat) (w : Word) : (setReg s a w).plus = s.plus := rfl
@[simp] theorem setReg_reds (a : Nat) (w : Word) : (setReg s a w).reds = s.reds := rfl
@[simp] theorem setReg_stys (a : Nat) (w : Word) : (setReg s a w).stys = s.stys := rfl
@[simp] theorem setReg_edges (a : Nat) (w : Word) : (setReg s a w).edges = s.edges := rfl
@[simp] theorem setReg_hbms (a : Nat) (w : Word) : (setReg s a w).hbms = s.hbms := rfl
@[simp] theorem setReg_dies (a : Nat) (w : Word) : (setReg s a w).dies = s.dies := rfl
@[simp] theorem setReg_links (a : Nat) (w : Word) : (setReg s a w).links = s.links := rfl
@[simp] theorem setReg_rows (a : Nat) (w : Word) : (setReg s a w).rows = s.rows := rfl
@[simp] theorem setReg_torter (a : Nat) (w : Word) : (setReg s a w).torter = s.torter := rfl
@[simp] theorem setReg_secure (a : Nat) (w : Word) : (setReg s a w).secure = s.secure := rfl
@[simp] theorem setReg_supply (a : Nat) (w : Word) : (setReg s a w).supply = s.supply := rfl
@[simp] theorem setReg_arrived (a : Nat) (w : Word) : (setReg s a w).arrived = s.arrived := rfl
@[simp] theorem setReg_asked (a : Nat) (w : Word) : (setReg s a w).asked = s.asked := rfl
@[simp] theorem setReg_attach (a : Nat) (w : Word) : (setReg s a w).attach = s.attach := rfl

/-! `wf`. -/

@[simp] theorem wf_pending (b : Nat) (f : Fld) (v : Nat) : (wf s b f v).pending = s.pending := rfl
@[simp] theorem wf_fresh (b : Nat) (f : Fld) (v : Nat) : (wf s b f v).fresh = s.fresh := rfl
@[simp] theorem wf_outbox (b : Nat) (f : Fld) (v : Nat) : (wf s b f v).outbox = s.outbox := rfl
@[simp] theorem wf_mem (b : Nat) (f : Fld) (v : Nat) : (wf s b f v).mem = s.mem := rfl
@[simp] theorem wf_poison (b : Nat) (f : Fld) (v : Nat) : (wf s b f v).poison = s.poison := rfl
@[simp] theorem wf_upsets (b : Nat) (f : Fld) (v : Nat) : (wf s b f v).upsets = s.upsets := rfl
@[simp] theorem wf_cores (b : Nat) (f : Fld) (v : Nat) : (wf s b f v).cores = s.cores := rfl
@[simp] theorem wf_chans (b : Nat) (f : Fld) (v : Nat) : (wf s b f v).chans = s.chans := rfl
@[simp] theorem wf_dmaPtr (b : Nat) (f : Fld) (v : Nat) : (wf s b f v).dmaPtr = s.dmaPtr := rfl
@[simp] theorem wf_gcs (b : Nat) (f : Fld) (v : Nat) : (wf s b f v).gcs = s.gcs := rfl
@[simp] theorem wf_plus (b : Nat) (f : Fld) (v : Nat) : (wf s b f v).plus = s.plus := rfl
@[simp] theorem wf_reds (b : Nat) (f : Fld) (v : Nat) : (wf s b f v).reds = s.reds := rfl
@[simp] theorem wf_stys (b : Nat) (f : Fld) (v : Nat) : (wf s b f v).stys = s.stys := rfl
@[simp] theorem wf_edges (b : Nat) (f : Fld) (v : Nat) : (wf s b f v).edges = s.edges := rfl
@[simp] theorem wf_hbms (b : Nat) (f : Fld) (v : Nat) : (wf s b f v).hbms = s.hbms := rfl
@[simp] theorem wf_dies (b : Nat) (f : Fld) (v : Nat) : (wf s b f v).dies = s.dies := rfl
@[simp] theorem wf_links (b : Nat) (f : Fld) (v : Nat) : (wf s b f v).links = s.links := rfl
@[simp] theorem wf_rows (b : Nat) (f : Fld) (v : Nat) : (wf s b f v).rows = s.rows := rfl
@[simp] theorem wf_torter (b : Nat) (f : Fld) (v : Nat) : (wf s b f v).torter = s.torter := rfl
@[simp] theorem wf_secure (b : Nat) (f : Fld) (v : Nat) : (wf s b f v).secure = s.secure := rfl
@[simp] theorem wf_supply (b : Nat) (f : Fld) (v : Nat) : (wf s b f v).supply = s.supply := rfl
@[simp] theorem wf_arrived (b : Nat) (f : Fld) (v : Nat) : (wf s b f v).arrived = s.arrived := rfl
@[simp] theorem wf_asked (b : Nat) (f : Fld) (v : Nat) : (wf s b f v).asked = s.asked := rfl
@[simp] theorem wf_attach (b : Nat) (f : Fld) (v : Nat) : (wf s b f v).attach = s.attach := rfl

/-! `setBit`. -/

@[simp] theorem setBit_pending (b : Nat) (f : Fld) : (setBit s b f).pending = s.pending := rfl
@[simp] theorem setBit_fresh (b : Nat) (f : Fld) : (setBit s b f).fresh = s.fresh := rfl
@[simp] theorem setBit_outbox (b : Nat) (f : Fld) : (setBit s b f).outbox = s.outbox := rfl
@[simp] theorem setBit_mem (b : Nat) (f : Fld) : (setBit s b f).mem = s.mem := rfl
@[simp] theorem setBit_poison (b : Nat) (f : Fld) : (setBit s b f).poison = s.poison := rfl
@[simp] theorem setBit_upsets (b : Nat) (f : Fld) : (setBit s b f).upsets = s.upsets := rfl
@[simp] theorem setBit_cores (b : Nat) (f : Fld) : (setBit s b f).cores = s.cores := rfl
@[simp] theorem setBit_chans (b : Nat) (f : Fld) : (setBit s b f).chans = s.chans := rfl
@[simp] theorem setBit_dmaPtr (b : Nat) (f : Fld) : (setBit s b f).dmaPtr = s.dmaPtr := rfl
@[simp] theorem setBit_gcs (b : Nat) (f : Fld) : (setBit s b f).gcs = s.gcs := rfl
@[simp] theorem setBit_plus (b : Nat) (f : Fld) : (setBit s b f).plus = s.plus := rfl
@[simp] theorem setBit_reds (b : Nat) (f : Fld) : (setBit s b f).reds = s.reds := rfl
@[simp] theorem setBit_stys (b : Nat) (f : Fld) : (setBit s b f).stys = s.stys := rfl
@[simp] theorem setBit_edges (b : Nat) (f : Fld) : (setBit s b f).edges = s.edges := rfl
@[simp] theorem setBit_hbms (b : Nat) (f : Fld) : (setBit s b f).hbms = s.hbms := rfl
@[simp] theorem setBit_dies (b : Nat) (f : Fld) : (setBit s b f).dies = s.dies := rfl
@[simp] theorem setBit_links (b : Nat) (f : Fld) : (setBit s b f).links = s.links := rfl
@[simp] theorem setBit_rows (b : Nat) (f : Fld) : (setBit s b f).rows = s.rows := rfl
@[simp] theorem setBit_torter (b : Nat) (f : Fld) : (setBit s b f).torter = s.torter := rfl
@[simp] theorem setBit_secure (b : Nat) (f : Fld) : (setBit s b f).secure = s.secure := rfl
@[simp] theorem setBit_supply (b : Nat) (f : Fld) : (setBit s b f).supply = s.supply := rfl
@[simp] theorem setBit_arrived (b : Nat) (f : Fld) : (setBit s b f).arrived = s.arrived := rfl
@[simp] theorem setBit_asked (b : Nat) (f : Fld) : (setBit s b f).asked = s.asked := rfl
@[simp] theorem setBit_attach (b : Nat) (f : Fld) : (setBit s b f).attach = s.attach := rfl

/-! `bump`. -/

@[simp] theorem bump_pending (b : Nat) (f : Fld) (k : Nat) : (bump s b f k).pending = s.pending := rfl
@[simp] theorem bump_fresh (b : Nat) (f : Fld) (k : Nat) : (bump s b f k).fresh = s.fresh := rfl
@[simp] theorem bump_outbox (b : Nat) (f : Fld) (k : Nat) : (bump s b f k).outbox = s.outbox := rfl
@[simp] theorem bump_mem (b : Nat) (f : Fld) (k : Nat) : (bump s b f k).mem = s.mem := rfl
@[simp] theorem bump_poison (b : Nat) (f : Fld) (k : Nat) : (bump s b f k).poison = s.poison := rfl
@[simp] theorem bump_upsets (b : Nat) (f : Fld) (k : Nat) : (bump s b f k).upsets = s.upsets := rfl
@[simp] theorem bump_cores (b : Nat) (f : Fld) (k : Nat) : (bump s b f k).cores = s.cores := rfl
@[simp] theorem bump_chans (b : Nat) (f : Fld) (k : Nat) : (bump s b f k).chans = s.chans := rfl
@[simp] theorem bump_dmaPtr (b : Nat) (f : Fld) (k : Nat) : (bump s b f k).dmaPtr = s.dmaPtr := rfl
@[simp] theorem bump_gcs (b : Nat) (f : Fld) (k : Nat) : (bump s b f k).gcs = s.gcs := rfl
@[simp] theorem bump_plus (b : Nat) (f : Fld) (k : Nat) : (bump s b f k).plus = s.plus := rfl
@[simp] theorem bump_reds (b : Nat) (f : Fld) (k : Nat) : (bump s b f k).reds = s.reds := rfl
@[simp] theorem bump_stys (b : Nat) (f : Fld) (k : Nat) : (bump s b f k).stys = s.stys := rfl
@[simp] theorem bump_edges (b : Nat) (f : Fld) (k : Nat) : (bump s b f k).edges = s.edges := rfl
@[simp] theorem bump_hbms (b : Nat) (f : Fld) (k : Nat) : (bump s b f k).hbms = s.hbms := rfl
@[simp] theorem bump_dies (b : Nat) (f : Fld) (k : Nat) : (bump s b f k).dies = s.dies := rfl
@[simp] theorem bump_links (b : Nat) (f : Fld) (k : Nat) : (bump s b f k).links = s.links := rfl
@[simp] theorem bump_rows (b : Nat) (f : Fld) (k : Nat) : (bump s b f k).rows = s.rows := rfl
@[simp] theorem bump_torter (b : Nat) (f : Fld) (k : Nat) : (bump s b f k).torter = s.torter := rfl
@[simp] theorem bump_secure (b : Nat) (f : Fld) (k : Nat) : (bump s b f k).secure = s.secure := rfl
@[simp] theorem bump_supply (b : Nat) (f : Fld) (k : Nat) : (bump s b f k).supply = s.supply := rfl
@[simp] theorem bump_arrived (b : Nat) (f : Fld) (k : Nat) : (bump s b f k).arrived = s.arrived := rfl
@[simp] theorem bump_asked (b : Nat) (f : Fld) (k : Nat) : (bump s b f k).asked = s.asked := rfl
@[simp] theorem bump_attach (b : Nat) (f : Fld) (k : Nat) : (bump s b f k).attach = s.attach := rfl

/-! `setFlags`. -/

@[simp] theorem setFlags_pending (b o : Nat) (f : Flags) : (setFlags s b o f).pending = s.pending := rfl
@[simp] theorem setFlags_fresh (b o : Nat) (f : Flags) : (setFlags s b o f).fresh = s.fresh := rfl
@[simp] theorem setFlags_outbox (b o : Nat) (f : Flags) : (setFlags s b o f).outbox = s.outbox := rfl
@[simp] theorem setFlags_mem (b o : Nat) (f : Flags) : (setFlags s b o f).mem = s.mem := rfl
@[simp] theorem setFlags_poison (b o : Nat) (f : Flags) : (setFlags s b o f).poison = s.poison := rfl
@[simp] theorem setFlags_upsets (b o : Nat) (f : Flags) : (setFlags s b o f).upsets = s.upsets := rfl
@[simp] theorem setFlags_cores (b o : Nat) (f : Flags) : (setFlags s b o f).cores = s.cores := rfl
@[simp] theorem setFlags_chans (b o : Nat) (f : Flags) : (setFlags s b o f).chans = s.chans := rfl
@[simp] theorem setFlags_dmaPtr (b o : Nat) (f : Flags) : (setFlags s b o f).dmaPtr = s.dmaPtr := rfl
@[simp] theorem setFlags_gcs (b o : Nat) (f : Flags) : (setFlags s b o f).gcs = s.gcs := rfl
@[simp] theorem setFlags_plus (b o : Nat) (f : Flags) : (setFlags s b o f).plus = s.plus := rfl
@[simp] theorem setFlags_reds (b o : Nat) (f : Flags) : (setFlags s b o f).reds = s.reds := rfl
@[simp] theorem setFlags_stys (b o : Nat) (f : Flags) : (setFlags s b o f).stys = s.stys := rfl
@[simp] theorem setFlags_edges (b o : Nat) (f : Flags) : (setFlags s b o f).edges = s.edges := rfl
@[simp] theorem setFlags_hbms (b o : Nat) (f : Flags) : (setFlags s b o f).hbms = s.hbms := rfl
@[simp] theorem setFlags_dies (b o : Nat) (f : Flags) : (setFlags s b o f).dies = s.dies := rfl
@[simp] theorem setFlags_links (b o : Nat) (f : Flags) : (setFlags s b o f).links = s.links := rfl
@[simp] theorem setFlags_rows (b o : Nat) (f : Flags) : (setFlags s b o f).rows = s.rows := rfl
@[simp] theorem setFlags_torter (b o : Nat) (f : Flags) : (setFlags s b o f).torter = s.torter := rfl
@[simp] theorem setFlags_secure (b o : Nat) (f : Flags) : (setFlags s b o f).secure = s.secure := rfl
@[simp] theorem setFlags_supply (b o : Nat) (f : Flags) : (setFlags s b o f).supply = s.supply := rfl
@[simp] theorem setFlags_arrived (b o : Nat) (f : Flags) : (setFlags s b o f).arrived = s.arrived := rfl
@[simp] theorem setFlags_asked (b o : Nat) (f : Flags) : (setFlags s b o f).asked = s.asked := rfl
@[simp] theorem setFlags_attach (b o : Nat) (f : Flags) : (setFlags s b o f).attach = s.attach := rfl

/-! `mendUnit`. -/

@[simp] theorem mendUnit_pending (d n u : Nat) : (mendUnit s d n u).pending = s.pending := by unfold mendUnit; split <;> rfl
@[simp] theorem mendUnit_fresh (d n u : Nat) : (mendUnit s d n u).fresh = s.fresh := by unfold mendUnit; split <;> rfl
@[simp] theorem mendUnit_outbox (d n u : Nat) : (mendUnit s d n u).outbox = s.outbox := by unfold mendUnit; split <;> rfl
@[simp] theorem mendUnit_mem (d n u : Nat) : (mendUnit s d n u).mem = s.mem := by unfold mendUnit; split <;> rfl
@[simp] theorem mendUnit_poison (d n u : Nat) : (mendUnit s d n u).poison = s.poison := by unfold mendUnit; split <;> rfl
@[simp] theorem mendUnit_upsets (d n u : Nat) : (mendUnit s d n u).upsets = s.upsets := by unfold mendUnit; split <;> rfl
@[simp] theorem mendUnit_regs (d n u : Nat) : (mendUnit s d n u).regs = s.regs := by unfold mendUnit; split <;> rfl
@[simp] theorem mendUnit_chans (d n u : Nat) : (mendUnit s d n u).chans = s.chans := by unfold mendUnit; split <;> rfl
@[simp] theorem mendUnit_dmaPtr (d n u : Nat) : (mendUnit s d n u).dmaPtr = s.dmaPtr := by unfold mendUnit; split <;> rfl
@[simp] theorem mendUnit_gcs (d n u : Nat) : (mendUnit s d n u).gcs = s.gcs := by unfold mendUnit; split <;> rfl
@[simp] theorem mendUnit_plus (d n u : Nat) : (mendUnit s d n u).plus = s.plus := by unfold mendUnit; split <;> rfl
@[simp] theorem mendUnit_reds (d n u : Nat) : (mendUnit s d n u).reds = s.reds := by unfold mendUnit; split <;> rfl
@[simp] theorem mendUnit_stys (d n u : Nat) : (mendUnit s d n u).stys = s.stys := by unfold mendUnit; split <;> rfl
@[simp] theorem mendUnit_edges (d n u : Nat) : (mendUnit s d n u).edges = s.edges := by unfold mendUnit; split <;> rfl
@[simp] theorem mendUnit_hbms (d n u : Nat) : (mendUnit s d n u).hbms = s.hbms := by unfold mendUnit; split <;> rfl
@[simp] theorem mendUnit_dies (d n u : Nat) : (mendUnit s d n u).dies = s.dies := by unfold mendUnit; split <;> rfl
@[simp] theorem mendUnit_links (d n u : Nat) : (mendUnit s d n u).links = s.links := by unfold mendUnit; split <;> rfl
@[simp] theorem mendUnit_rows (d n u : Nat) : (mendUnit s d n u).rows = s.rows := by unfold mendUnit; split <;> rfl
@[simp] theorem mendUnit_torter (d n u : Nat) : (mendUnit s d n u).torter = s.torter := by unfold mendUnit; split <;> rfl
@[simp] theorem mendUnit_secure (d n u : Nat) : (mendUnit s d n u).secure = s.secure := by unfold mendUnit; split <;> rfl
@[simp] theorem mendUnit_supply (d n u : Nat) : (mendUnit s d n u).supply = s.supply := by unfold mendUnit; split <;> rfl
@[simp] theorem mendUnit_arrived (d n u : Nat) : (mendUnit s d n u).arrived = s.arrived := by unfold mendUnit; split <;> rfl
@[simp] theorem mendUnit_asked (d n u : Nat) : (mendUnit s d n u).asked = s.asked := by unfold mendUnit; split <;> rfl
@[simp] theorem mendUnit_attach (d n u : Nat) : (mendUnit s d n u).attach = s.attach := by unfold mendUnit; split <;> rfl

/-! `setSem`. -/

@[simp] theorem setSem_pending (d n k v : Nat) : (setSem s d n k v).pending = s.pending := by unfold setSem; simp
@[simp] theorem setSem_fresh (d n k v : Nat) : (setSem s d n k v).fresh = s.fresh := by unfold setSem; simp
@[simp] theorem setSem_outbox (d n k v : Nat) : (setSem s d n k v).outbox = s.outbox := by unfold setSem; simp
@[simp] theorem setSem_mem (d n k v : Nat) : (setSem s d n k v).mem = s.mem := by unfold setSem; simp
@[simp] theorem setSem_poison (d n k v : Nat) : (setSem s d n k v).poison = s.poison := by unfold setSem; simp
@[simp] theorem setSem_upsets (d n k v : Nat) : (setSem s d n k v).upsets = s.upsets := by unfold setSem; simp
@[simp] theorem setSem_chans (d n k v : Nat) : (setSem s d n k v).chans = s.chans := by unfold setSem; simp
@[simp] theorem setSem_dmaPtr (d n k v : Nat) : (setSem s d n k v).dmaPtr = s.dmaPtr := by unfold setSem; simp
@[simp] theorem setSem_gcs (d n k v : Nat) : (setSem s d n k v).gcs = s.gcs := by unfold setSem; simp
@[simp] theorem setSem_plus (d n k v : Nat) : (setSem s d n k v).plus = s.plus := by unfold setSem; simp
@[simp] theorem setSem_reds (d n k v : Nat) : (setSem s d n k v).reds = s.reds := by unfold setSem; simp
@[simp] theorem setSem_stys (d n k v : Nat) : (setSem s d n k v).stys = s.stys := by unfold setSem; simp
@[simp] theorem setSem_edges (d n k v : Nat) : (setSem s d n k v).edges = s.edges := by unfold setSem; simp
@[simp] theorem setSem_hbms (d n k v : Nat) : (setSem s d n k v).hbms = s.hbms := by unfold setSem; simp
@[simp] theorem setSem_dies (d n k v : Nat) : (setSem s d n k v).dies = s.dies := by unfold setSem; simp
@[simp] theorem setSem_links (d n k v : Nat) : (setSem s d n k v).links = s.links := by unfold setSem; simp
@[simp] theorem setSem_rows (d n k v : Nat) : (setSem s d n k v).rows = s.rows := by unfold setSem; simp
@[simp] theorem setSem_torter (d n k v : Nat) : (setSem s d n k v).torter = s.torter := by unfold setSem; simp
@[simp] theorem setSem_secure (d n k v : Nat) : (setSem s d n k v).secure = s.secure := by unfold setSem; simp
@[simp] theorem setSem_supply (d n k v : Nat) : (setSem s d n k v).supply = s.supply := by unfold setSem; simp
@[simp] theorem setSem_arrived (d n k v : Nat) : (setSem s d n k v).arrived = s.arrived := by unfold setSem; simp
@[simp] theorem setSem_asked (d n k v : Nat) : (setSem s d n k v).asked = s.asked := by unfold setSem; simp
@[simp] theorem setSem_attach (d n k v : Nat) : (setSem s d n k v).attach = s.attach := by unfold setSem; simp

/-! `setPc`. -/

@[simp] theorem setPc_pending (d n v : Nat) : (setPc s d n v).pending = s.pending := rfl
@[simp] theorem setPc_fresh (d n v : Nat) : (setPc s d n v).fresh = s.fresh := rfl
@[simp] theorem setPc_outbox (d n v : Nat) : (setPc s d n v).outbox = s.outbox := rfl
@[simp] theorem setPc_mem (d n v : Nat) : (setPc s d n v).mem = s.mem := rfl
@[simp] theorem setPc_poison (d n v : Nat) : (setPc s d n v).poison = s.poison := rfl
@[simp] theorem setPc_upsets (d n v : Nat) : (setPc s d n v).upsets = s.upsets := rfl
@[simp] theorem setPc_cores (d n v : Nat) : (setPc s d n v).cores = s.cores := rfl
@[simp] theorem setPc_chans (d n v : Nat) : (setPc s d n v).chans = s.chans := rfl
@[simp] theorem setPc_dmaPtr (d n v : Nat) : (setPc s d n v).dmaPtr = s.dmaPtr := rfl
@[simp] theorem setPc_gcs (d n v : Nat) : (setPc s d n v).gcs = s.gcs := rfl
@[simp] theorem setPc_plus (d n v : Nat) : (setPc s d n v).plus = s.plus := rfl
@[simp] theorem setPc_reds (d n v : Nat) : (setPc s d n v).reds = s.reds := rfl
@[simp] theorem setPc_stys (d n v : Nat) : (setPc s d n v).stys = s.stys := rfl
@[simp] theorem setPc_edges (d n v : Nat) : (setPc s d n v).edges = s.edges := rfl
@[simp] theorem setPc_hbms (d n v : Nat) : (setPc s d n v).hbms = s.hbms := rfl
@[simp] theorem setPc_dies (d n v : Nat) : (setPc s d n v).dies = s.dies := rfl
@[simp] theorem setPc_links (d n v : Nat) : (setPc s d n v).links = s.links := rfl
@[simp] theorem setPc_rows (d n v : Nat) : (setPc s d n v).rows = s.rows := rfl
@[simp] theorem setPc_torter (d n v : Nat) : (setPc s d n v).torter = s.torter := rfl
@[simp] theorem setPc_secure (d n v : Nat) : (setPc s d n v).secure = s.secure := rfl
@[simp] theorem setPc_supply (d n v : Nat) : (setPc s d n v).supply = s.supply := rfl
@[simp] theorem setPc_arrived (d n v : Nat) : (setPc s d n v).arrived = s.arrived := rfl
@[simp] theorem setPc_asked (d n v : Nat) : (setPc s d n v).asked = s.asked := rfl
@[simp] theorem setPc_attach (d n v : Nat) : (setPc s d n v).attach = s.attach := rfl

/-! `setCoreState`. -/

@[simp] theorem setCoreState_pending (d n v : Nat) : (setCoreState s d n v).pending = s.pending := rfl
@[simp] theorem setCoreState_fresh (d n v : Nat) : (setCoreState s d n v).fresh = s.fresh := rfl
@[simp] theorem setCoreState_outbox (d n v : Nat) : (setCoreState s d n v).outbox = s.outbox := rfl
@[simp] theorem setCoreState_mem (d n v : Nat) : (setCoreState s d n v).mem = s.mem := rfl
@[simp] theorem setCoreState_poison (d n v : Nat) : (setCoreState s d n v).poison = s.poison := rfl
@[simp] theorem setCoreState_upsets (d n v : Nat) : (setCoreState s d n v).upsets = s.upsets := rfl
@[simp] theorem setCoreState_cores (d n v : Nat) : (setCoreState s d n v).cores = s.cores := rfl
@[simp] theorem setCoreState_chans (d n v : Nat) : (setCoreState s d n v).chans = s.chans := rfl
@[simp] theorem setCoreState_dmaPtr (d n v : Nat) : (setCoreState s d n v).dmaPtr = s.dmaPtr := rfl
@[simp] theorem setCoreState_gcs (d n v : Nat) : (setCoreState s d n v).gcs = s.gcs := rfl
@[simp] theorem setCoreState_plus (d n v : Nat) : (setCoreState s d n v).plus = s.plus := rfl
@[simp] theorem setCoreState_reds (d n v : Nat) : (setCoreState s d n v).reds = s.reds := rfl
@[simp] theorem setCoreState_stys (d n v : Nat) : (setCoreState s d n v).stys = s.stys := rfl
@[simp] theorem setCoreState_edges (d n v : Nat) : (setCoreState s d n v).edges = s.edges := rfl
@[simp] theorem setCoreState_hbms (d n v : Nat) : (setCoreState s d n v).hbms = s.hbms := rfl
@[simp] theorem setCoreState_dies (d n v : Nat) : (setCoreState s d n v).dies = s.dies := rfl
@[simp] theorem setCoreState_links (d n v : Nat) : (setCoreState s d n v).links = s.links := rfl
@[simp] theorem setCoreState_rows (d n v : Nat) : (setCoreState s d n v).rows = s.rows := rfl
@[simp] theorem setCoreState_torter (d n v : Nat) : (setCoreState s d n v).torter = s.torter := rfl
@[simp] theorem setCoreState_secure (d n v : Nat) : (setCoreState s d n v).secure = s.secure := rfl
@[simp] theorem setCoreState_supply (d n v : Nat) : (setCoreState s d n v).supply = s.supply := rfl
@[simp] theorem setCoreState_arrived (d n v : Nat) : (setCoreState s d n v).arrived = s.arrived := rfl
@[simp] theorem setCoreState_asked (d n v : Nat) : (setCoreState s d n v).asked = s.asked := rfl
@[simp] theorem setCoreState_attach (d n v : Nat) : (setCoreState s d n v).attach = s.attach := rfl

/-! `setChan`. -/

@[simp] theorem setChan_pending (d c k v : Nat) : (setChan s d c k v).pending = s.pending := rfl
@[simp] theorem setChan_fresh (d c k v : Nat) : (setChan s d c k v).fresh = s.fresh := rfl
@[simp] theorem setChan_outbox (d c k v : Nat) : (setChan s d c k v).outbox = s.outbox := rfl
@[simp] theorem setChan_mem (d c k v : Nat) : (setChan s d c k v).mem = s.mem := rfl
@[simp] theorem setChan_poison (d c k v : Nat) : (setChan s d c k v).poison = s.poison := rfl
@[simp] theorem setChan_upsets (d c k v : Nat) : (setChan s d c k v).upsets = s.upsets := rfl
@[simp] theorem setChan_cores (d c k v : Nat) : (setChan s d c k v).cores = s.cores := rfl
@[simp] theorem setChan_chans (d c k v : Nat) : (setChan s d c k v).chans = s.chans := rfl
@[simp] theorem setChan_dmaPtr (d c k v : Nat) : (setChan s d c k v).dmaPtr = s.dmaPtr := rfl
@[simp] theorem setChan_gcs (d c k v : Nat) : (setChan s d c k v).gcs = s.gcs := rfl
@[simp] theorem setChan_plus (d c k v : Nat) : (setChan s d c k v).plus = s.plus := rfl
@[simp] theorem setChan_reds (d c k v : Nat) : (setChan s d c k v).reds = s.reds := rfl
@[simp] theorem setChan_stys (d c k v : Nat) : (setChan s d c k v).stys = s.stys := rfl
@[simp] theorem setChan_edges (d c k v : Nat) : (setChan s d c k v).edges = s.edges := rfl
@[simp] theorem setChan_hbms (d c k v : Nat) : (setChan s d c k v).hbms = s.hbms := rfl
@[simp] theorem setChan_dies (d c k v : Nat) : (setChan s d c k v).dies = s.dies := rfl
@[simp] theorem setChan_links (d c k v : Nat) : (setChan s d c k v).links = s.links := rfl
@[simp] theorem setChan_rows (d c k v : Nat) : (setChan s d c k v).rows = s.rows := rfl
@[simp] theorem setChan_torter (d c k v : Nat) : (setChan s d c k v).torter = s.torter := rfl
@[simp] theorem setChan_secure (d c k v : Nat) : (setChan s d c k v).secure = s.secure := rfl
@[simp] theorem setChan_supply (d c k v : Nat) : (setChan s d c k v).supply = s.supply := rfl
@[simp] theorem setChan_arrived (d c k v : Nat) : (setChan s d c k v).arrived = s.arrived := rfl
@[simp] theorem setChan_asked (d c k v : Nat) : (setChan s d c k v).asked = s.asked := rfl
@[simp] theorem setChan_attach (d c k v : Nat) : (setChan s d c k v).attach = s.attach := rfl

/-! `countFence`. -/

@[simp] theorem countFence_pending (d c : Nat) : (countFence s d c).pending = s.pending := rfl
@[simp] theorem countFence_fresh (d c : Nat) : (countFence s d c).fresh = s.fresh := rfl
@[simp] theorem countFence_outbox (d c : Nat) : (countFence s d c).outbox = s.outbox := rfl
@[simp] theorem countFence_mem (d c : Nat) : (countFence s d c).mem = s.mem := rfl
@[simp] theorem countFence_poison (d c : Nat) : (countFence s d c).poison = s.poison := rfl
@[simp] theorem countFence_upsets (d c : Nat) : (countFence s d c).upsets = s.upsets := rfl
@[simp] theorem countFence_cores (d c : Nat) : (countFence s d c).cores = s.cores := rfl
@[simp] theorem countFence_chans (d c : Nat) : (countFence s d c).chans = s.chans := rfl
@[simp] theorem countFence_dmaPtr (d c : Nat) : (countFence s d c).dmaPtr = s.dmaPtr := rfl
@[simp] theorem countFence_gcs (d c : Nat) : (countFence s d c).gcs = s.gcs := rfl
@[simp] theorem countFence_plus (d c : Nat) : (countFence s d c).plus = s.plus := rfl
@[simp] theorem countFence_reds (d c : Nat) : (countFence s d c).reds = s.reds := rfl
@[simp] theorem countFence_stys (d c : Nat) : (countFence s d c).stys = s.stys := rfl
@[simp] theorem countFence_edges (d c : Nat) : (countFence s d c).edges = s.edges := rfl
@[simp] theorem countFence_hbms (d c : Nat) : (countFence s d c).hbms = s.hbms := rfl
@[simp] theorem countFence_dies (d c : Nat) : (countFence s d c).dies = s.dies := rfl
@[simp] theorem countFence_links (d c : Nat) : (countFence s d c).links = s.links := rfl
@[simp] theorem countFence_rows (d c : Nat) : (countFence s d c).rows = s.rows := rfl
@[simp] theorem countFence_torter (d c : Nat) : (countFence s d c).torter = s.torter := rfl
@[simp] theorem countFence_secure (d c : Nat) : (countFence s d c).secure = s.secure := rfl
@[simp] theorem countFence_supply (d c : Nat) : (countFence s d c).supply = s.supply := rfl
@[simp] theorem countFence_arrived (d c : Nat) : (countFence s d c).arrived = s.arrived := rfl
@[simp] theorem countFence_asked (d c : Nat) : (countFence s d c).asked = s.asked := rfl
@[simp] theorem countFence_attach (d c : Nat) : (countFence s d c).attach = s.attach := rfl

/-! `setCore`. -/

@[simp] theorem setCore_pending (d n : Nat) (c : CoreSt) : (setCore s d n c).pending = s.pending := rfl
@[simp] theorem setCore_fresh (d n : Nat) (c : CoreSt) : (setCore s d n c).fresh = s.fresh := rfl
@[simp] theorem setCore_outbox (d n : Nat) (c : CoreSt) : (setCore s d n c).outbox = s.outbox := rfl
@[simp] theorem setCore_mem (d n : Nat) (c : CoreSt) : (setCore s d n c).mem = s.mem := rfl
@[simp] theorem setCore_poison (d n : Nat) (c : CoreSt) : (setCore s d n c).poison = s.poison := rfl
@[simp] theorem setCore_upsets (d n : Nat) (c : CoreSt) : (setCore s d n c).upsets = s.upsets := rfl
@[simp] theorem setCore_regs (d n : Nat) (c : CoreSt) : (setCore s d n c).regs = s.regs := rfl
@[simp] theorem setCore_chans (d n : Nat) (c : CoreSt) : (setCore s d n c).chans = s.chans := rfl
@[simp] theorem setCore_dmaPtr (d n : Nat) (c : CoreSt) : (setCore s d n c).dmaPtr = s.dmaPtr := rfl
@[simp] theorem setCore_gcs (d n : Nat) (c : CoreSt) : (setCore s d n c).gcs = s.gcs := rfl
@[simp] theorem setCore_plus (d n : Nat) (c : CoreSt) : (setCore s d n c).plus = s.plus := rfl
@[simp] theorem setCore_reds (d n : Nat) (c : CoreSt) : (setCore s d n c).reds = s.reds := rfl
@[simp] theorem setCore_stys (d n : Nat) (c : CoreSt) : (setCore s d n c).stys = s.stys := rfl
@[simp] theorem setCore_edges (d n : Nat) (c : CoreSt) : (setCore s d n c).edges = s.edges := rfl
@[simp] theorem setCore_hbms (d n : Nat) (c : CoreSt) : (setCore s d n c).hbms = s.hbms := rfl
@[simp] theorem setCore_dies (d n : Nat) (c : CoreSt) : (setCore s d n c).dies = s.dies := rfl
@[simp] theorem setCore_links (d n : Nat) (c : CoreSt) : (setCore s d n c).links = s.links := rfl
@[simp] theorem setCore_rows (d n : Nat) (c : CoreSt) : (setCore s d n c).rows = s.rows := rfl
@[simp] theorem setCore_torter (d n : Nat) (c : CoreSt) : (setCore s d n c).torter = s.torter := rfl
@[simp] theorem setCore_secure (d n : Nat) (c : CoreSt) : (setCore s d n c).secure = s.secure := rfl
@[simp] theorem setCore_supply (d n : Nat) (c : CoreSt) : (setCore s d n c).supply = s.supply := rfl
@[simp] theorem setCore_arrived (d n : Nat) (c : CoreSt) : (setCore s d n c).arrived = s.arrived := rfl
@[simp] theorem setCore_asked (d n : Nat) (c : CoreSt) : (setCore s d n c).asked = s.asked := rfl
@[simp] theorem setCore_attach (d n : Nat) (c : CoreSt) : (setCore s d n c).attach = s.attach := rfl

/-! `modCore`. -/

@[simp] theorem modCore_pending (d n : Nat) (f : CoreSt → CoreSt) : (modCore s d n f).pending = s.pending := rfl
@[simp] theorem modCore_fresh (d n : Nat) (f : CoreSt → CoreSt) : (modCore s d n f).fresh = s.fresh := rfl
@[simp] theorem modCore_outbox (d n : Nat) (f : CoreSt → CoreSt) : (modCore s d n f).outbox = s.outbox := rfl
@[simp] theorem modCore_mem (d n : Nat) (f : CoreSt → CoreSt) : (modCore s d n f).mem = s.mem := rfl
@[simp] theorem modCore_poison (d n : Nat) (f : CoreSt → CoreSt) : (modCore s d n f).poison = s.poison := rfl
@[simp] theorem modCore_upsets (d n : Nat) (f : CoreSt → CoreSt) : (modCore s d n f).upsets = s.upsets := rfl
@[simp] theorem modCore_regs (d n : Nat) (f : CoreSt → CoreSt) : (modCore s d n f).regs = s.regs := rfl
@[simp] theorem modCore_chans (d n : Nat) (f : CoreSt → CoreSt) : (modCore s d n f).chans = s.chans := rfl
@[simp] theorem modCore_dmaPtr (d n : Nat) (f : CoreSt → CoreSt) : (modCore s d n f).dmaPtr = s.dmaPtr := rfl
@[simp] theorem modCore_gcs (d n : Nat) (f : CoreSt → CoreSt) : (modCore s d n f).gcs = s.gcs := rfl
@[simp] theorem modCore_plus (d n : Nat) (f : CoreSt → CoreSt) : (modCore s d n f).plus = s.plus := rfl
@[simp] theorem modCore_reds (d n : Nat) (f : CoreSt → CoreSt) : (modCore s d n f).reds = s.reds := rfl
@[simp] theorem modCore_stys (d n : Nat) (f : CoreSt → CoreSt) : (modCore s d n f).stys = s.stys := rfl
@[simp] theorem modCore_edges (d n : Nat) (f : CoreSt → CoreSt) : (modCore s d n f).edges = s.edges := rfl
@[simp] theorem modCore_hbms (d n : Nat) (f : CoreSt → CoreSt) : (modCore s d n f).hbms = s.hbms := rfl
@[simp] theorem modCore_dies (d n : Nat) (f : CoreSt → CoreSt) : (modCore s d n f).dies = s.dies := rfl
@[simp] theorem modCore_links (d n : Nat) (f : CoreSt → CoreSt) : (modCore s d n f).links = s.links := rfl
@[simp] theorem modCore_rows (d n : Nat) (f : CoreSt → CoreSt) : (modCore s d n f).rows = s.rows := rfl
@[simp] theorem modCore_torter (d n : Nat) (f : CoreSt → CoreSt) : (modCore s d n f).torter = s.torter := rfl
@[simp] theorem modCore_secure (d n : Nat) (f : CoreSt → CoreSt) : (modCore s d n f).secure = s.secure := rfl
@[simp] theorem modCore_supply (d n : Nat) (f : CoreSt → CoreSt) : (modCore s d n f).supply = s.supply := rfl
@[simp] theorem modCore_arrived (d n : Nat) (f : CoreSt → CoreSt) : (modCore s d n f).arrived = s.arrived := rfl
@[simp] theorem modCore_asked (d n : Nat) (f : CoreSt → CoreSt) : (modCore s d n f).asked = s.asked := rfl
@[simp] theorem modCore_attach (d n : Nat) (f : CoreSt → CoreSt) : (modCore s d n f).attach = s.attach := rfl

/-! `setX`. -/

@[simp] theorem setX_pending (d n : Nat) (k : BitVec 5) (v : Word) : (setX s d n k v).pending = s.pending := rfl
@[simp] theorem setX_fresh (d n : Nat) (k : BitVec 5) (v : Word) : (setX s d n k v).fresh = s.fresh := rfl
@[simp] theorem setX_outbox (d n : Nat) (k : BitVec 5) (v : Word) : (setX s d n k v).outbox = s.outbox := rfl
@[simp] theorem setX_mem (d n : Nat) (k : BitVec 5) (v : Word) : (setX s d n k v).mem = s.mem := rfl
@[simp] theorem setX_poison (d n : Nat) (k : BitVec 5) (v : Word) : (setX s d n k v).poison = s.poison := rfl
@[simp] theorem setX_upsets (d n : Nat) (k : BitVec 5) (v : Word) : (setX s d n k v).upsets = s.upsets := rfl
@[simp] theorem setX_regs (d n : Nat) (k : BitVec 5) (v : Word) : (setX s d n k v).regs = s.regs := rfl
@[simp] theorem setX_chans (d n : Nat) (k : BitVec 5) (v : Word) : (setX s d n k v).chans = s.chans := rfl
@[simp] theorem setX_dmaPtr (d n : Nat) (k : BitVec 5) (v : Word) : (setX s d n k v).dmaPtr = s.dmaPtr := rfl
@[simp] theorem setX_gcs (d n : Nat) (k : BitVec 5) (v : Word) : (setX s d n k v).gcs = s.gcs := rfl
@[simp] theorem setX_plus (d n : Nat) (k : BitVec 5) (v : Word) : (setX s d n k v).plus = s.plus := rfl
@[simp] theorem setX_reds (d n : Nat) (k : BitVec 5) (v : Word) : (setX s d n k v).reds = s.reds := rfl
@[simp] theorem setX_stys (d n : Nat) (k : BitVec 5) (v : Word) : (setX s d n k v).stys = s.stys := rfl
@[simp] theorem setX_edges (d n : Nat) (k : BitVec 5) (v : Word) : (setX s d n k v).edges = s.edges := rfl
@[simp] theorem setX_hbms (d n : Nat) (k : BitVec 5) (v : Word) : (setX s d n k v).hbms = s.hbms := rfl
@[simp] theorem setX_dies (d n : Nat) (k : BitVec 5) (v : Word) : (setX s d n k v).dies = s.dies := rfl
@[simp] theorem setX_links (d n : Nat) (k : BitVec 5) (v : Word) : (setX s d n k v).links = s.links := rfl
@[simp] theorem setX_rows (d n : Nat) (k : BitVec 5) (v : Word) : (setX s d n k v).rows = s.rows := rfl
@[simp] theorem setX_torter (d n : Nat) (k : BitVec 5) (v : Word) : (setX s d n k v).torter = s.torter := rfl
@[simp] theorem setX_secure (d n : Nat) (k : BitVec 5) (v : Word) : (setX s d n k v).secure = s.secure := rfl
@[simp] theorem setX_supply (d n : Nat) (k : BitVec 5) (v : Word) : (setX s d n k v).supply = s.supply := rfl
@[simp] theorem setX_arrived (d n : Nat) (k : BitVec 5) (v : Word) : (setX s d n k v).arrived = s.arrived := rfl
@[simp] theorem setX_asked (d n : Nat) (k : BitVec 5) (v : Word) : (setX s d n k v).asked = s.asked := rfl
@[simp] theorem setX_attach (d n : Nat) (k : BitVec 5) (v : Word) : (setX s d n k v).attach = s.attach := rfl

/-! `setA`. -/

@[simp] theorem setA_pending (d n : Nat) (k : BitVec 4) (v : Desc) : (setA s d n k v).pending = s.pending := rfl
@[simp] theorem setA_fresh (d n : Nat) (k : BitVec 4) (v : Desc) : (setA s d n k v).fresh = s.fresh := rfl
@[simp] theorem setA_outbox (d n : Nat) (k : BitVec 4) (v : Desc) : (setA s d n k v).outbox = s.outbox := rfl
@[simp] theorem setA_mem (d n : Nat) (k : BitVec 4) (v : Desc) : (setA s d n k v).mem = s.mem := rfl
@[simp] theorem setA_poison (d n : Nat) (k : BitVec 4) (v : Desc) : (setA s d n k v).poison = s.poison := rfl
@[simp] theorem setA_upsets (d n : Nat) (k : BitVec 4) (v : Desc) : (setA s d n k v).upsets = s.upsets := rfl
@[simp] theorem setA_regs (d n : Nat) (k : BitVec 4) (v : Desc) : (setA s d n k v).regs = s.regs := rfl
@[simp] theorem setA_chans (d n : Nat) (k : BitVec 4) (v : Desc) : (setA s d n k v).chans = s.chans := rfl
@[simp] theorem setA_dmaPtr (d n : Nat) (k : BitVec 4) (v : Desc) : (setA s d n k v).dmaPtr = s.dmaPtr := rfl
@[simp] theorem setA_gcs (d n : Nat) (k : BitVec 4) (v : Desc) : (setA s d n k v).gcs = s.gcs := rfl
@[simp] theorem setA_plus (d n : Nat) (k : BitVec 4) (v : Desc) : (setA s d n k v).plus = s.plus := rfl
@[simp] theorem setA_reds (d n : Nat) (k : BitVec 4) (v : Desc) : (setA s d n k v).reds = s.reds := rfl
@[simp] theorem setA_stys (d n : Nat) (k : BitVec 4) (v : Desc) : (setA s d n k v).stys = s.stys := rfl
@[simp] theorem setA_edges (d n : Nat) (k : BitVec 4) (v : Desc) : (setA s d n k v).edges = s.edges := rfl
@[simp] theorem setA_hbms (d n : Nat) (k : BitVec 4) (v : Desc) : (setA s d n k v).hbms = s.hbms := rfl
@[simp] theorem setA_dies (d n : Nat) (k : BitVec 4) (v : Desc) : (setA s d n k v).dies = s.dies := rfl
@[simp] theorem setA_links (d n : Nat) (k : BitVec 4) (v : Desc) : (setA s d n k v).links = s.links := rfl
@[simp] theorem setA_rows (d n : Nat) (k : BitVec 4) (v : Desc) : (setA s d n k v).rows = s.rows := rfl
@[simp] theorem setA_torter (d n : Nat) (k : BitVec 4) (v : Desc) : (setA s d n k v).torter = s.torter := rfl
@[simp] theorem setA_secure (d n : Nat) (k : BitVec 4) (v : Desc) : (setA s d n k v).secure = s.secure := rfl
@[simp] theorem setA_supply (d n : Nat) (k : BitVec 4) (v : Desc) : (setA s d n k v).supply = s.supply := rfl
@[simp] theorem setA_arrived (d n : Nat) (k : BitVec 4) (v : Desc) : (setA s d n k v).arrived = s.arrived := rfl
@[simp] theorem setA_asked (d n : Nat) (k : BitVec 4) (v : Desc) : (setA s d n k v).asked = s.asked := rfl
@[simp] theorem setA_attach (d n : Nat) (k : BitVec 4) (v : Desc) : (setA s d n k v).attach = s.attach := rfl

/-! `setHold`. -/

@[simp] theorem setHold_pending (d n : Nat) (h : Option Hold) : (setHold s d n h).pending = s.pending := rfl
@[simp] theorem setHold_fresh (d n : Nat) (h : Option Hold) : (setHold s d n h).fresh = s.fresh := rfl
@[simp] theorem setHold_outbox (d n : Nat) (h : Option Hold) : (setHold s d n h).outbox = s.outbox := rfl
@[simp] theorem setHold_mem (d n : Nat) (h : Option Hold) : (setHold s d n h).mem = s.mem := rfl
@[simp] theorem setHold_poison (d n : Nat) (h : Option Hold) : (setHold s d n h).poison = s.poison := rfl
@[simp] theorem setHold_upsets (d n : Nat) (h : Option Hold) : (setHold s d n h).upsets = s.upsets := rfl
@[simp] theorem setHold_regs (d n : Nat) (h : Option Hold) : (setHold s d n h).regs = s.regs := rfl
@[simp] theorem setHold_chans (d n : Nat) (h : Option Hold) : (setHold s d n h).chans = s.chans := rfl
@[simp] theorem setHold_dmaPtr (d n : Nat) (h : Option Hold) : (setHold s d n h).dmaPtr = s.dmaPtr := rfl
@[simp] theorem setHold_gcs (d n : Nat) (h : Option Hold) : (setHold s d n h).gcs = s.gcs := rfl
@[simp] theorem setHold_plus (d n : Nat) (h : Option Hold) : (setHold s d n h).plus = s.plus := rfl
@[simp] theorem setHold_reds (d n : Nat) (h : Option Hold) : (setHold s d n h).reds = s.reds := rfl
@[simp] theorem setHold_stys (d n : Nat) (h : Option Hold) : (setHold s d n h).stys = s.stys := rfl
@[simp] theorem setHold_edges (d n : Nat) (h : Option Hold) : (setHold s d n h).edges = s.edges := rfl
@[simp] theorem setHold_hbms (d n : Nat) (h : Option Hold) : (setHold s d n h).hbms = s.hbms := rfl
@[simp] theorem setHold_dies (d n : Nat) (h : Option Hold) : (setHold s d n h).dies = s.dies := rfl
@[simp] theorem setHold_links (d n : Nat) (h : Option Hold) : (setHold s d n h).links = s.links := rfl
@[simp] theorem setHold_rows (d n : Nat) (h : Option Hold) : (setHold s d n h).rows = s.rows := rfl
@[simp] theorem setHold_torter (d n : Nat) (h : Option Hold) : (setHold s d n h).torter = s.torter := rfl
@[simp] theorem setHold_secure (d n : Nat) (h : Option Hold) : (setHold s d n h).secure = s.secure := rfl
@[simp] theorem setHold_supply (d n : Nat) (h : Option Hold) : (setHold s d n h).supply = s.supply := rfl
@[simp] theorem setHold_arrived (d n : Nat) (h : Option Hold) : (setHold s d n h).arrived = s.arrived := rfl
@[simp] theorem setHold_asked (d n : Nat) (h : Option Hold) : (setHold s d n h).asked = s.asked := rfl
@[simp] theorem setHold_attach (d n : Nat) (h : Option Hold) : (setHold s d n h).attach = s.attach := rfl

/-! `fetchBuffer`. -/

@[simp] theorem fetchBuffer_pending (d n pc : Nat) : (fetchBuffer s d n pc).pending = s.pending := rfl
@[simp] theorem fetchBuffer_fresh (d n pc : Nat) : (fetchBuffer s d n pc).fresh = s.fresh := rfl
@[simp] theorem fetchBuffer_outbox (d n pc : Nat) : (fetchBuffer s d n pc).outbox = s.outbox := rfl
@[simp] theorem fetchBuffer_mem (d n pc : Nat) : (fetchBuffer s d n pc).mem = s.mem := rfl
@[simp] theorem fetchBuffer_poison (d n pc : Nat) : (fetchBuffer s d n pc).poison = s.poison := rfl
@[simp] theorem fetchBuffer_upsets (d n pc : Nat) : (fetchBuffer s d n pc).upsets = s.upsets := rfl
@[simp] theorem fetchBuffer_regs (d n pc : Nat) : (fetchBuffer s d n pc).regs = s.regs := rfl
@[simp] theorem fetchBuffer_chans (d n pc : Nat) : (fetchBuffer s d n pc).chans = s.chans := rfl
@[simp] theorem fetchBuffer_dmaPtr (d n pc : Nat) : (fetchBuffer s d n pc).dmaPtr = s.dmaPtr := rfl
@[simp] theorem fetchBuffer_gcs (d n pc : Nat) : (fetchBuffer s d n pc).gcs = s.gcs := rfl
@[simp] theorem fetchBuffer_plus (d n pc : Nat) : (fetchBuffer s d n pc).plus = s.plus := rfl
@[simp] theorem fetchBuffer_reds (d n pc : Nat) : (fetchBuffer s d n pc).reds = s.reds := rfl
@[simp] theorem fetchBuffer_stys (d n pc : Nat) : (fetchBuffer s d n pc).stys = s.stys := rfl
@[simp] theorem fetchBuffer_edges (d n pc : Nat) : (fetchBuffer s d n pc).edges = s.edges := rfl
@[simp] theorem fetchBuffer_hbms (d n pc : Nat) : (fetchBuffer s d n pc).hbms = s.hbms := rfl
@[simp] theorem fetchBuffer_dies (d n pc : Nat) : (fetchBuffer s d n pc).dies = s.dies := rfl
@[simp] theorem fetchBuffer_links (d n pc : Nat) : (fetchBuffer s d n pc).links = s.links := rfl
@[simp] theorem fetchBuffer_rows (d n pc : Nat) : (fetchBuffer s d n pc).rows = s.rows := rfl
@[simp] theorem fetchBuffer_torter (d n pc : Nat) : (fetchBuffer s d n pc).torter = s.torter := rfl
@[simp] theorem fetchBuffer_secure (d n pc : Nat) : (fetchBuffer s d n pc).secure = s.secure := rfl
@[simp] theorem fetchBuffer_supply (d n pc : Nat) : (fetchBuffer s d n pc).supply = s.supply := rfl
@[simp] theorem fetchBuffer_arrived (d n pc : Nat) : (fetchBuffer s d n pc).arrived = s.arrived := rfl
@[simp] theorem fetchBuffer_asked (d n pc : Nat) : (fetchBuffer s d n pc).asked = s.asked := rfl
@[simp] theorem fetchBuffer_attach (d n pc : Nat) : (fetchBuffer s d n pc).attach = s.attach := rfl

/-! `markDone`. -/

@[simp] theorem markDone_pending (d n k i : Nat) : (markDone s d n k i).pending = s.pending := rfl
@[simp] theorem markDone_fresh (d n k i : Nat) : (markDone s d n k i).fresh = s.fresh := rfl
@[simp] theorem markDone_outbox (d n k i : Nat) : (markDone s d n k i).outbox = s.outbox := rfl
@[simp] theorem markDone_mem (d n k i : Nat) : (markDone s d n k i).mem = s.mem := rfl
@[simp] theorem markDone_poison (d n k i : Nat) : (markDone s d n k i).poison = s.poison := rfl
@[simp] theorem markDone_upsets (d n k i : Nat) : (markDone s d n k i).upsets = s.upsets := rfl
@[simp] theorem markDone_regs (d n k i : Nat) : (markDone s d n k i).regs = s.regs := rfl
@[simp] theorem markDone_chans (d n k i : Nat) : (markDone s d n k i).chans = s.chans := rfl
@[simp] theorem markDone_dmaPtr (d n k i : Nat) : (markDone s d n k i).dmaPtr = s.dmaPtr := rfl
@[simp] theorem markDone_gcs (d n k i : Nat) : (markDone s d n k i).gcs = s.gcs := rfl
@[simp] theorem markDone_plus (d n k i : Nat) : (markDone s d n k i).plus = s.plus := rfl
@[simp] theorem markDone_reds (d n k i : Nat) : (markDone s d n k i).reds = s.reds := rfl
@[simp] theorem markDone_stys (d n k i : Nat) : (markDone s d n k i).stys = s.stys := rfl
@[simp] theorem markDone_edges (d n k i : Nat) : (markDone s d n k i).edges = s.edges := rfl
@[simp] theorem markDone_hbms (d n k i : Nat) : (markDone s d n k i).hbms = s.hbms := rfl
@[simp] theorem markDone_dies (d n k i : Nat) : (markDone s d n k i).dies = s.dies := rfl
@[simp] theorem markDone_links (d n k i : Nat) : (markDone s d n k i).links = s.links := rfl
@[simp] theorem markDone_rows (d n k i : Nat) : (markDone s d n k i).rows = s.rows := rfl
@[simp] theorem markDone_torter (d n k i : Nat) : (markDone s d n k i).torter = s.torter := rfl
@[simp] theorem markDone_secure (d n k i : Nat) : (markDone s d n k i).secure = s.secure := rfl
@[simp] theorem markDone_supply (d n k i : Nat) : (markDone s d n k i).supply = s.supply := rfl
@[simp] theorem markDone_arrived (d n k i : Nat) : (markDone s d n k i).arrived = s.arrived := rfl
@[simp] theorem markDone_asked (d n k i : Nat) : (markDone s d n k i).asked = s.asked := rfl
@[simp] theorem markDone_attach (d n k i : Nat) : (markDone s d n k i).attach = s.attach := rfl

/-! `modDie`. -/

@[simp] theorem modDie_pending (d : Nat) (f : DieSt → DieSt) : (modDie s d f).pending = s.pending := rfl
@[simp] theorem modDie_fresh (d : Nat) (f : DieSt → DieSt) : (modDie s d f).fresh = s.fresh := rfl
@[simp] theorem modDie_outbox (d : Nat) (f : DieSt → DieSt) : (modDie s d f).outbox = s.outbox := rfl
@[simp] theorem modDie_mem (d : Nat) (f : DieSt → DieSt) : (modDie s d f).mem = s.mem := rfl
@[simp] theorem modDie_poison (d : Nat) (f : DieSt → DieSt) : (modDie s d f).poison = s.poison := rfl
@[simp] theorem modDie_upsets (d : Nat) (f : DieSt → DieSt) : (modDie s d f).upsets = s.upsets := rfl
@[simp] theorem modDie_regs (d : Nat) (f : DieSt → DieSt) : (modDie s d f).regs = s.regs := rfl
@[simp] theorem modDie_cores (d : Nat) (f : DieSt → DieSt) : (modDie s d f).cores = s.cores := rfl
@[simp] theorem modDie_chans (d : Nat) (f : DieSt → DieSt) : (modDie s d f).chans = s.chans := rfl
@[simp] theorem modDie_dmaPtr (d : Nat) (f : DieSt → DieSt) : (modDie s d f).dmaPtr = s.dmaPtr := rfl
@[simp] theorem modDie_gcs (d : Nat) (f : DieSt → DieSt) : (modDie s d f).gcs = s.gcs := rfl
@[simp] theorem modDie_plus (d : Nat) (f : DieSt → DieSt) : (modDie s d f).plus = s.plus := rfl
@[simp] theorem modDie_reds (d : Nat) (f : DieSt → DieSt) : (modDie s d f).reds = s.reds := rfl
@[simp] theorem modDie_stys (d : Nat) (f : DieSt → DieSt) : (modDie s d f).stys = s.stys := rfl
@[simp] theorem modDie_edges (d : Nat) (f : DieSt → DieSt) : (modDie s d f).edges = s.edges := rfl
@[simp] theorem modDie_hbms (d : Nat) (f : DieSt → DieSt) : (modDie s d f).hbms = s.hbms := rfl
@[simp] theorem modDie_links (d : Nat) (f : DieSt → DieSt) : (modDie s d f).links = s.links := rfl
@[simp] theorem modDie_rows (d : Nat) (f : DieSt → DieSt) : (modDie s d f).rows = s.rows := rfl
@[simp] theorem modDie_torter (d : Nat) (f : DieSt → DieSt) : (modDie s d f).torter = s.torter := rfl
@[simp] theorem modDie_secure (d : Nat) (f : DieSt → DieSt) : (modDie s d f).secure = s.secure := rfl
@[simp] theorem modDie_supply (d : Nat) (f : DieSt → DieSt) : (modDie s d f).supply = s.supply := rfl
@[simp] theorem modDie_arrived (d : Nat) (f : DieSt → DieSt) : (modDie s d f).arrived = s.arrived := rfl
@[simp] theorem modDie_asked (d : Nat) (f : DieSt → DieSt) : (modDie s d f).asked = s.asked := rfl
@[simp] theorem modDie_attach (d : Nat) (f : DieSt → DieSt) : (modDie s d f).attach = s.attach := rfl

/-! `modPow`. -/

@[simp] theorem modPow_pending (d : Nat) (f : PowSt → PowSt) : (modPow s d f).pending = s.pending := rfl
@[simp] theorem modPow_fresh (d : Nat) (f : PowSt → PowSt) : (modPow s d f).fresh = s.fresh := rfl
@[simp] theorem modPow_outbox (d : Nat) (f : PowSt → PowSt) : (modPow s d f).outbox = s.outbox := rfl
@[simp] theorem modPow_mem (d : Nat) (f : PowSt → PowSt) : (modPow s d f).mem = s.mem := rfl
@[simp] theorem modPow_poison (d : Nat) (f : PowSt → PowSt) : (modPow s d f).poison = s.poison := rfl
@[simp] theorem modPow_upsets (d : Nat) (f : PowSt → PowSt) : (modPow s d f).upsets = s.upsets := rfl
@[simp] theorem modPow_regs (d : Nat) (f : PowSt → PowSt) : (modPow s d f).regs = s.regs := rfl
@[simp] theorem modPow_cores (d : Nat) (f : PowSt → PowSt) : (modPow s d f).cores = s.cores := rfl
@[simp] theorem modPow_chans (d : Nat) (f : PowSt → PowSt) : (modPow s d f).chans = s.chans := rfl
@[simp] theorem modPow_dmaPtr (d : Nat) (f : PowSt → PowSt) : (modPow s d f).dmaPtr = s.dmaPtr := rfl
@[simp] theorem modPow_gcs (d : Nat) (f : PowSt → PowSt) : (modPow s d f).gcs = s.gcs := rfl
@[simp] theorem modPow_plus (d : Nat) (f : PowSt → PowSt) : (modPow s d f).plus = s.plus := rfl
@[simp] theorem modPow_reds (d : Nat) (f : PowSt → PowSt) : (modPow s d f).reds = s.reds := rfl
@[simp] theorem modPow_stys (d : Nat) (f : PowSt → PowSt) : (modPow s d f).stys = s.stys := rfl
@[simp] theorem modPow_edges (d : Nat) (f : PowSt → PowSt) : (modPow s d f).edges = s.edges := rfl
@[simp] theorem modPow_hbms (d : Nat) (f : PowSt → PowSt) : (modPow s d f).hbms = s.hbms := rfl
@[simp] theorem modPow_links (d : Nat) (f : PowSt → PowSt) : (modPow s d f).links = s.links := rfl
@[simp] theorem modPow_rows (d : Nat) (f : PowSt → PowSt) : (modPow s d f).rows = s.rows := rfl
@[simp] theorem modPow_torter (d : Nat) (f : PowSt → PowSt) : (modPow s d f).torter = s.torter := rfl
@[simp] theorem modPow_secure (d : Nat) (f : PowSt → PowSt) : (modPow s d f).secure = s.secure := rfl
@[simp] theorem modPow_supply (d : Nat) (f : PowSt → PowSt) : (modPow s d f).supply = s.supply := rfl
@[simp] theorem modPow_arrived (d : Nat) (f : PowSt → PowSt) : (modPow s d f).arrived = s.arrived := rfl
@[simp] theorem modPow_asked (d : Nat) (f : PowSt → PowSt) : (modPow s d f).asked = s.asked := rfl
@[simp] theorem modPow_attach (d : Nat) (f : PowSt → PowSt) : (modPow s d f).attach = s.attach := rfl

/-! `modChan`. -/

@[simp] theorem modChan_pending (d c k : Nat) (f : ChanSt → ChanSt) : (modChan s d c k f).pending = s.pending := rfl
@[simp] theorem modChan_fresh (d c k : Nat) (f : ChanSt → ChanSt) : (modChan s d c k f).fresh = s.fresh := rfl
@[simp] theorem modChan_outbox (d c k : Nat) (f : ChanSt → ChanSt) : (modChan s d c k f).outbox = s.outbox := rfl
@[simp] theorem modChan_mem (d c k : Nat) (f : ChanSt → ChanSt) : (modChan s d c k f).mem = s.mem := rfl
@[simp] theorem modChan_poison (d c k : Nat) (f : ChanSt → ChanSt) : (modChan s d c k f).poison = s.poison := rfl
@[simp] theorem modChan_upsets (d c k : Nat) (f : ChanSt → ChanSt) : (modChan s d c k f).upsets = s.upsets := rfl
@[simp] theorem modChan_regs (d c k : Nat) (f : ChanSt → ChanSt) : (modChan s d c k f).regs = s.regs := rfl
@[simp] theorem modChan_cores (d c k : Nat) (f : ChanSt → ChanSt) : (modChan s d c k f).cores = s.cores := rfl
@[simp] theorem modChan_dmaPtr (d c k : Nat) (f : ChanSt → ChanSt) : (modChan s d c k f).dmaPtr = s.dmaPtr := rfl
@[simp] theorem modChan_gcs (d c k : Nat) (f : ChanSt → ChanSt) : (modChan s d c k f).gcs = s.gcs := rfl
@[simp] theorem modChan_plus (d c k : Nat) (f : ChanSt → ChanSt) : (modChan s d c k f).plus = s.plus := rfl
@[simp] theorem modChan_reds (d c k : Nat) (f : ChanSt → ChanSt) : (modChan s d c k f).reds = s.reds := rfl
@[simp] theorem modChan_stys (d c k : Nat) (f : ChanSt → ChanSt) : (modChan s d c k f).stys = s.stys := rfl
@[simp] theorem modChan_edges (d c k : Nat) (f : ChanSt → ChanSt) : (modChan s d c k f).edges = s.edges := rfl
@[simp] theorem modChan_hbms (d c k : Nat) (f : ChanSt → ChanSt) : (modChan s d c k f).hbms = s.hbms := rfl
@[simp] theorem modChan_dies (d c k : Nat) (f : ChanSt → ChanSt) : (modChan s d c k f).dies = s.dies := rfl
@[simp] theorem modChan_links (d c k : Nat) (f : ChanSt → ChanSt) : (modChan s d c k f).links = s.links := rfl
@[simp] theorem modChan_rows (d c k : Nat) (f : ChanSt → ChanSt) : (modChan s d c k f).rows = s.rows := rfl
@[simp] theorem modChan_torter (d c k : Nat) (f : ChanSt → ChanSt) : (modChan s d c k f).torter = s.torter := rfl
@[simp] theorem modChan_secure (d c k : Nat) (f : ChanSt → ChanSt) : (modChan s d c k f).secure = s.secure := rfl
@[simp] theorem modChan_supply (d c k : Nat) (f : ChanSt → ChanSt) : (modChan s d c k f).supply = s.supply := rfl
@[simp] theorem modChan_arrived (d c k : Nat) (f : ChanSt → ChanSt) : (modChan s d c k f).arrived = s.arrived := rfl
@[simp] theorem modChan_asked (d c k : Nat) (f : ChanSt → ChanSt) : (modChan s d c k f).asked = s.asked := rfl
@[simp] theorem modChan_attach (d c k : Nat) (f : ChanSt → ChanSt) : (modChan s d c k f).attach = s.attach := rfl

/-! `setGc`. -/

@[simp] theorem setGc_pending (d c : Nat) (q : List GcCmd) : (setGc s d c q).pending = s.pending := rfl
@[simp] theorem setGc_fresh (d c : Nat) (q : List GcCmd) : (setGc s d c q).fresh = s.fresh := rfl
@[simp] theorem setGc_outbox (d c : Nat) (q : List GcCmd) : (setGc s d c q).outbox = s.outbox := rfl
@[simp] theorem setGc_mem (d c : Nat) (q : List GcCmd) : (setGc s d c q).mem = s.mem := rfl
@[simp] theorem setGc_poison (d c : Nat) (q : List GcCmd) : (setGc s d c q).poison = s.poison := rfl
@[simp] theorem setGc_upsets (d c : Nat) (q : List GcCmd) : (setGc s d c q).upsets = s.upsets := rfl
@[simp] theorem setGc_regs (d c : Nat) (q : List GcCmd) : (setGc s d c q).regs = s.regs := rfl
@[simp] theorem setGc_cores (d c : Nat) (q : List GcCmd) : (setGc s d c q).cores = s.cores := rfl
@[simp] theorem setGc_chans (d c : Nat) (q : List GcCmd) : (setGc s d c q).chans = s.chans := rfl
@[simp] theorem setGc_dmaPtr (d c : Nat) (q : List GcCmd) : (setGc s d c q).dmaPtr = s.dmaPtr := rfl
@[simp] theorem setGc_plus (d c : Nat) (q : List GcCmd) : (setGc s d c q).plus = s.plus := rfl
@[simp] theorem setGc_reds (d c : Nat) (q : List GcCmd) : (setGc s d c q).reds = s.reds := rfl
@[simp] theorem setGc_stys (d c : Nat) (q : List GcCmd) : (setGc s d c q).stys = s.stys := rfl
@[simp] theorem setGc_edges (d c : Nat) (q : List GcCmd) : (setGc s d c q).edges = s.edges := rfl
@[simp] theorem setGc_hbms (d c : Nat) (q : List GcCmd) : (setGc s d c q).hbms = s.hbms := rfl
@[simp] theorem setGc_dies (d c : Nat) (q : List GcCmd) : (setGc s d c q).dies = s.dies := rfl
@[simp] theorem setGc_links (d c : Nat) (q : List GcCmd) : (setGc s d c q).links = s.links := rfl
@[simp] theorem setGc_rows (d c : Nat) (q : List GcCmd) : (setGc s d c q).rows = s.rows := rfl
@[simp] theorem setGc_torter (d c : Nat) (q : List GcCmd) : (setGc s d c q).torter = s.torter := rfl
@[simp] theorem setGc_secure (d c : Nat) (q : List GcCmd) : (setGc s d c q).secure = s.secure := rfl
@[simp] theorem setGc_supply (d c : Nat) (q : List GcCmd) : (setGc s d c q).supply = s.supply := rfl
@[simp] theorem setGc_arrived (d c : Nat) (q : List GcCmd) : (setGc s d c q).arrived = s.arrived := rfl
@[simp] theorem setGc_asked (d c : Nat) (q : List GcCmd) : (setGc s d c q).asked = s.asked := rfl
@[simp] theorem setGc_attach (d c : Nat) (q : List GcCmd) : (setGc s d c q).attach = s.attach := rfl

/-! `setPlu`. -/

@[simp] theorem setPlu_pending (d : Nat) (p : PluSt) : (setPlu s d p).pending = s.pending := rfl
@[simp] theorem setPlu_fresh (d : Nat) (p : PluSt) : (setPlu s d p).fresh = s.fresh := rfl
@[simp] theorem setPlu_outbox (d : Nat) (p : PluSt) : (setPlu s d p).outbox = s.outbox := rfl
@[simp] theorem setPlu_mem (d : Nat) (p : PluSt) : (setPlu s d p).mem = s.mem := rfl
@[simp] theorem setPlu_poison (d : Nat) (p : PluSt) : (setPlu s d p).poison = s.poison := rfl
@[simp] theorem setPlu_upsets (d : Nat) (p : PluSt) : (setPlu s d p).upsets = s.upsets := rfl
@[simp] theorem setPlu_regs (d : Nat) (p : PluSt) : (setPlu s d p).regs = s.regs := rfl
@[simp] theorem setPlu_cores (d : Nat) (p : PluSt) : (setPlu s d p).cores = s.cores := rfl
@[simp] theorem setPlu_chans (d : Nat) (p : PluSt) : (setPlu s d p).chans = s.chans := rfl
@[simp] theorem setPlu_dmaPtr (d : Nat) (p : PluSt) : (setPlu s d p).dmaPtr = s.dmaPtr := rfl
@[simp] theorem setPlu_gcs (d : Nat) (p : PluSt) : (setPlu s d p).gcs = s.gcs := rfl
@[simp] theorem setPlu_reds (d : Nat) (p : PluSt) : (setPlu s d p).reds = s.reds := rfl
@[simp] theorem setPlu_stys (d : Nat) (p : PluSt) : (setPlu s d p).stys = s.stys := rfl
@[simp] theorem setPlu_edges (d : Nat) (p : PluSt) : (setPlu s d p).edges = s.edges := rfl
@[simp] theorem setPlu_hbms (d : Nat) (p : PluSt) : (setPlu s d p).hbms = s.hbms := rfl
@[simp] theorem setPlu_dies (d : Nat) (p : PluSt) : (setPlu s d p).dies = s.dies := rfl
@[simp] theorem setPlu_links (d : Nat) (p : PluSt) : (setPlu s d p).links = s.links := rfl
@[simp] theorem setPlu_rows (d : Nat) (p : PluSt) : (setPlu s d p).rows = s.rows := rfl
@[simp] theorem setPlu_torter (d : Nat) (p : PluSt) : (setPlu s d p).torter = s.torter := rfl
@[simp] theorem setPlu_secure (d : Nat) (p : PluSt) : (setPlu s d p).secure = s.secure := rfl
@[simp] theorem setPlu_supply (d : Nat) (p : PluSt) : (setPlu s d p).supply = s.supply := rfl
@[simp] theorem setPlu_arrived (d : Nat) (p : PluSt) : (setPlu s d p).arrived = s.arrived := rfl
@[simp] theorem setPlu_asked (d : Nat) (p : PluSt) : (setPlu s d p).asked = s.asked := rfl
@[simp] theorem setPlu_attach (d : Nat) (p : PluSt) : (setPlu s d p).attach = s.attach := rfl

/-! `setRed`. -/

@[simp] theorem setRed_pending (d : Nat) (r : RedSt) : (setRed s d r).pending = s.pending := rfl
@[simp] theorem setRed_fresh (d : Nat) (r : RedSt) : (setRed s d r).fresh = s.fresh := rfl
@[simp] theorem setRed_outbox (d : Nat) (r : RedSt) : (setRed s d r).outbox = s.outbox := rfl
@[simp] theorem setRed_mem (d : Nat) (r : RedSt) : (setRed s d r).mem = s.mem := rfl
@[simp] theorem setRed_poison (d : Nat) (r : RedSt) : (setRed s d r).poison = s.poison := rfl
@[simp] theorem setRed_upsets (d : Nat) (r : RedSt) : (setRed s d r).upsets = s.upsets := rfl
@[simp] theorem setRed_regs (d : Nat) (r : RedSt) : (setRed s d r).regs = s.regs := rfl
@[simp] theorem setRed_cores (d : Nat) (r : RedSt) : (setRed s d r).cores = s.cores := rfl
@[simp] theorem setRed_chans (d : Nat) (r : RedSt) : (setRed s d r).chans = s.chans := rfl
@[simp] theorem setRed_dmaPtr (d : Nat) (r : RedSt) : (setRed s d r).dmaPtr = s.dmaPtr := rfl
@[simp] theorem setRed_gcs (d : Nat) (r : RedSt) : (setRed s d r).gcs = s.gcs := rfl
@[simp] theorem setRed_plus (d : Nat) (r : RedSt) : (setRed s d r).plus = s.plus := rfl
@[simp] theorem setRed_stys (d : Nat) (r : RedSt) : (setRed s d r).stys = s.stys := rfl
@[simp] theorem setRed_edges (d : Nat) (r : RedSt) : (setRed s d r).edges = s.edges := rfl
@[simp] theorem setRed_hbms (d : Nat) (r : RedSt) : (setRed s d r).hbms = s.hbms := rfl
@[simp] theorem setRed_dies (d : Nat) (r : RedSt) : (setRed s d r).dies = s.dies := rfl
@[simp] theorem setRed_links (d : Nat) (r : RedSt) : (setRed s d r).links = s.links := rfl
@[simp] theorem setRed_rows (d : Nat) (r : RedSt) : (setRed s d r).rows = s.rows := rfl
@[simp] theorem setRed_torter (d : Nat) (r : RedSt) : (setRed s d r).torter = s.torter := rfl
@[simp] theorem setRed_secure (d : Nat) (r : RedSt) : (setRed s d r).secure = s.secure := rfl
@[simp] theorem setRed_supply (d : Nat) (r : RedSt) : (setRed s d r).supply = s.supply := rfl
@[simp] theorem setRed_arrived (d : Nat) (r : RedSt) : (setRed s d r).arrived = s.arrived := rfl
@[simp] theorem setRed_asked (d : Nat) (r : RedSt) : (setRed s d r).asked = s.asked := rfl
@[simp] theorem setRed_attach (d : Nat) (r : RedSt) : (setRed s d r).attach = s.attach := rfl

/-! `setSty`. -/

@[simp] theorem setSty_pending (d : Nat) (r : StySt) : (setSty s d r).pending = s.pending := rfl
@[simp] theorem setSty_fresh (d : Nat) (r : StySt) : (setSty s d r).fresh = s.fresh := rfl
@[simp] theorem setSty_outbox (d : Nat) (r : StySt) : (setSty s d r).outbox = s.outbox := rfl
@[simp] theorem setSty_mem (d : Nat) (r : StySt) : (setSty s d r).mem = s.mem := rfl
@[simp] theorem setSty_poison (d : Nat) (r : StySt) : (setSty s d r).poison = s.poison := rfl
@[simp] theorem setSty_upsets (d : Nat) (r : StySt) : (setSty s d r).upsets = s.upsets := rfl
@[simp] theorem setSty_regs (d : Nat) (r : StySt) : (setSty s d r).regs = s.regs := rfl
@[simp] theorem setSty_cores (d : Nat) (r : StySt) : (setSty s d r).cores = s.cores := rfl
@[simp] theorem setSty_chans (d : Nat) (r : StySt) : (setSty s d r).chans = s.chans := rfl
@[simp] theorem setSty_dmaPtr (d : Nat) (r : StySt) : (setSty s d r).dmaPtr = s.dmaPtr := rfl
@[simp] theorem setSty_gcs (d : Nat) (r : StySt) : (setSty s d r).gcs = s.gcs := rfl
@[simp] theorem setSty_plus (d : Nat) (r : StySt) : (setSty s d r).plus = s.plus := rfl
@[simp] theorem setSty_reds (d : Nat) (r : StySt) : (setSty s d r).reds = s.reds := rfl
@[simp] theorem setSty_edges (d : Nat) (r : StySt) : (setSty s d r).edges = s.edges := rfl
@[simp] theorem setSty_hbms (d : Nat) (r : StySt) : (setSty s d r).hbms = s.hbms := rfl
@[simp] theorem setSty_dies (d : Nat) (r : StySt) : (setSty s d r).dies = s.dies := rfl
@[simp] theorem setSty_links (d : Nat) (r : StySt) : (setSty s d r).links = s.links := rfl
@[simp] theorem setSty_rows (d : Nat) (r : StySt) : (setSty s d r).rows = s.rows := rfl
@[simp] theorem setSty_torter (d : Nat) (r : StySt) : (setSty s d r).torter = s.torter := rfl
@[simp] theorem setSty_secure (d : Nat) (r : StySt) : (setSty s d r).secure = s.secure := rfl
@[simp] theorem setSty_supply (d : Nat) (r : StySt) : (setSty s d r).supply = s.supply := rfl
@[simp] theorem setSty_arrived (d : Nat) (r : StySt) : (setSty s d r).arrived = s.arrived := rfl
@[simp] theorem setSty_asked (d : Nat) (r : StySt) : (setSty s d r).asked = s.asked := rfl
@[simp] theorem setSty_attach (d : Nat) (r : StySt) : (setSty s d r).attach = s.attach := rfl

/-! `setHbm`. -/

@[simp] theorem setHbm_pending (d k : Nat) (h : HbmSt) : (setHbm s d k h).pending = s.pending := rfl
@[simp] theorem setHbm_fresh (d k : Nat) (h : HbmSt) : (setHbm s d k h).fresh = s.fresh := rfl
@[simp] theorem setHbm_outbox (d k : Nat) (h : HbmSt) : (setHbm s d k h).outbox = s.outbox := rfl
@[simp] theorem setHbm_mem (d k : Nat) (h : HbmSt) : (setHbm s d k h).mem = s.mem := rfl
@[simp] theorem setHbm_poison (d k : Nat) (h : HbmSt) : (setHbm s d k h).poison = s.poison := rfl
@[simp] theorem setHbm_upsets (d k : Nat) (h : HbmSt) : (setHbm s d k h).upsets = s.upsets := rfl
@[simp] theorem setHbm_regs (d k : Nat) (h : HbmSt) : (setHbm s d k h).regs = s.regs := rfl
@[simp] theorem setHbm_cores (d k : Nat) (h : HbmSt) : (setHbm s d k h).cores = s.cores := rfl
@[simp] theorem setHbm_chans (d k : Nat) (h : HbmSt) : (setHbm s d k h).chans = s.chans := rfl
@[simp] theorem setHbm_dmaPtr (d k : Nat) (h : HbmSt) : (setHbm s d k h).dmaPtr = s.dmaPtr := rfl
@[simp] theorem setHbm_gcs (d k : Nat) (h : HbmSt) : (setHbm s d k h).gcs = s.gcs := rfl
@[simp] theorem setHbm_plus (d k : Nat) (h : HbmSt) : (setHbm s d k h).plus = s.plus := rfl
@[simp] theorem setHbm_reds (d k : Nat) (h : HbmSt) : (setHbm s d k h).reds = s.reds := rfl
@[simp] theorem setHbm_stys (d k : Nat) (h : HbmSt) : (setHbm s d k h).stys = s.stys := rfl
@[simp] theorem setHbm_edges (d k : Nat) (h : HbmSt) : (setHbm s d k h).edges = s.edges := rfl
@[simp] theorem setHbm_dies (d k : Nat) (h : HbmSt) : (setHbm s d k h).dies = s.dies := rfl
@[simp] theorem setHbm_links (d k : Nat) (h : HbmSt) : (setHbm s d k h).links = s.links := rfl
@[simp] theorem setHbm_rows (d k : Nat) (h : HbmSt) : (setHbm s d k h).rows = s.rows := rfl
@[simp] theorem setHbm_torter (d k : Nat) (h : HbmSt) : (setHbm s d k h).torter = s.torter := rfl
@[simp] theorem setHbm_secure (d k : Nat) (h : HbmSt) : (setHbm s d k h).secure = s.secure := rfl
@[simp] theorem setHbm_supply (d k : Nat) (h : HbmSt) : (setHbm s d k h).supply = s.supply := rfl
@[simp] theorem setHbm_arrived (d k : Nat) (h : HbmSt) : (setHbm s d k h).arrived = s.arrived := rfl
@[simp] theorem setHbm_asked (d k : Nat) (h : HbmSt) : (setHbm s d k h).asked = s.asked := rfl
@[simp] theorem setHbm_attach (d k : Nat) (h : HbmSt) : (setHbm s d k h).attach = s.attach := rfl

/-! `setEdge`. -/

@[simp] theorem setEdge_pending (d k : Nat) (e : EdgeSt) : (setEdge s d k e).pending = s.pending := rfl
@[simp] theorem setEdge_fresh (d k : Nat) (e : EdgeSt) : (setEdge s d k e).fresh = s.fresh := rfl
@[simp] theorem setEdge_outbox (d k : Nat) (e : EdgeSt) : (setEdge s d k e).outbox = s.outbox := rfl
@[simp] theorem setEdge_mem (d k : Nat) (e : EdgeSt) : (setEdge s d k e).mem = s.mem := rfl
@[simp] theorem setEdge_poison (d k : Nat) (e : EdgeSt) : (setEdge s d k e).poison = s.poison := rfl
@[simp] theorem setEdge_upsets (d k : Nat) (e : EdgeSt) : (setEdge s d k e).upsets = s.upsets := rfl
@[simp] theorem setEdge_regs (d k : Nat) (e : EdgeSt) : (setEdge s d k e).regs = s.regs := rfl
@[simp] theorem setEdge_cores (d k : Nat) (e : EdgeSt) : (setEdge s d k e).cores = s.cores := rfl
@[simp] theorem setEdge_chans (d k : Nat) (e : EdgeSt) : (setEdge s d k e).chans = s.chans := rfl
@[simp] theorem setEdge_dmaPtr (d k : Nat) (e : EdgeSt) : (setEdge s d k e).dmaPtr = s.dmaPtr := rfl
@[simp] theorem setEdge_gcs (d k : Nat) (e : EdgeSt) : (setEdge s d k e).gcs = s.gcs := rfl
@[simp] theorem setEdge_plus (d k : Nat) (e : EdgeSt) : (setEdge s d k e).plus = s.plus := rfl
@[simp] theorem setEdge_reds (d k : Nat) (e : EdgeSt) : (setEdge s d k e).reds = s.reds := rfl
@[simp] theorem setEdge_stys (d k : Nat) (e : EdgeSt) : (setEdge s d k e).stys = s.stys := rfl
@[simp] theorem setEdge_hbms (d k : Nat) (e : EdgeSt) : (setEdge s d k e).hbms = s.hbms := rfl
@[simp] theorem setEdge_dies (d k : Nat) (e : EdgeSt) : (setEdge s d k e).dies = s.dies := rfl
@[simp] theorem setEdge_links (d k : Nat) (e : EdgeSt) : (setEdge s d k e).links = s.links := rfl
@[simp] theorem setEdge_rows (d k : Nat) (e : EdgeSt) : (setEdge s d k e).rows = s.rows := rfl
@[simp] theorem setEdge_torter (d k : Nat) (e : EdgeSt) : (setEdge s d k e).torter = s.torter := rfl
@[simp] theorem setEdge_secure (d k : Nat) (e : EdgeSt) : (setEdge s d k e).secure = s.secure := rfl
@[simp] theorem setEdge_supply (d k : Nat) (e : EdgeSt) : (setEdge s d k e).supply = s.supply := rfl
@[simp] theorem setEdge_arrived (d k : Nat) (e : EdgeSt) : (setEdge s d k e).arrived = s.arrived := rfl
@[simp] theorem setEdge_asked (d k : Nat) (e : EdgeSt) : (setEdge s d k e).asked = s.asked := rfl
@[simp] theorem setEdge_attach (d k : Nat) (e : EdgeSt) : (setEdge s d k e).attach = s.attach := rfl

/-! `modLink`. -/

@[simp] theorem modLink_pending (d : Nat) (f : LinkSt → LinkSt) : (modLink s d f).pending = s.pending := rfl
@[simp] theorem modLink_fresh (d : Nat) (f : LinkSt → LinkSt) : (modLink s d f).fresh = s.fresh := rfl
@[simp] theorem modLink_outbox (d : Nat) (f : LinkSt → LinkSt) : (modLink s d f).outbox = s.outbox := rfl
@[simp] theorem modLink_mem (d : Nat) (f : LinkSt → LinkSt) : (modLink s d f).mem = s.mem := rfl
@[simp] theorem modLink_poison (d : Nat) (f : LinkSt → LinkSt) : (modLink s d f).poison = s.poison := rfl
@[simp] theorem modLink_upsets (d : Nat) (f : LinkSt → LinkSt) : (modLink s d f).upsets = s.upsets := rfl
@[simp] theorem modLink_regs (d : Nat) (f : LinkSt → LinkSt) : (modLink s d f).regs = s.regs := rfl
@[simp] theorem modLink_cores (d : Nat) (f : LinkSt → LinkSt) : (modLink s d f).cores = s.cores := rfl
@[simp] theorem modLink_chans (d : Nat) (f : LinkSt → LinkSt) : (modLink s d f).chans = s.chans := rfl
@[simp] theorem modLink_dmaPtr (d : Nat) (f : LinkSt → LinkSt) : (modLink s d f).dmaPtr = s.dmaPtr := rfl
@[simp] theorem modLink_gcs (d : Nat) (f : LinkSt → LinkSt) : (modLink s d f).gcs = s.gcs := rfl
@[simp] theorem modLink_plus (d : Nat) (f : LinkSt → LinkSt) : (modLink s d f).plus = s.plus := rfl
@[simp] theorem modLink_reds (d : Nat) (f : LinkSt → LinkSt) : (modLink s d f).reds = s.reds := rfl
@[simp] theorem modLink_stys (d : Nat) (f : LinkSt → LinkSt) : (modLink s d f).stys = s.stys := rfl
@[simp] theorem modLink_edges (d : Nat) (f : LinkSt → LinkSt) : (modLink s d f).edges = s.edges := rfl
@[simp] theorem modLink_hbms (d : Nat) (f : LinkSt → LinkSt) : (modLink s d f).hbms = s.hbms := rfl
@[simp] theorem modLink_dies (d : Nat) (f : LinkSt → LinkSt) : (modLink s d f).dies = s.dies := rfl
@[simp] theorem modLink_rows (d : Nat) (f : LinkSt → LinkSt) : (modLink s d f).rows = s.rows := rfl
@[simp] theorem modLink_torter (d : Nat) (f : LinkSt → LinkSt) : (modLink s d f).torter = s.torter := rfl
@[simp] theorem modLink_secure (d : Nat) (f : LinkSt → LinkSt) : (modLink s d f).secure = s.secure := rfl
@[simp] theorem modLink_supply (d : Nat) (f : LinkSt → LinkSt) : (modLink s d f).supply = s.supply := rfl
@[simp] theorem modLink_arrived (d : Nat) (f : LinkSt → LinkSt) : (modLink s d f).arrived = s.arrived := rfl
@[simp] theorem modLink_asked (d : Nat) (f : LinkSt → LinkSt) : (modLink s d f).asked = s.asked := rfl
@[simp] theorem modLink_attach (d : Nat) (f : LinkSt → LinkSt) : (modLink s d f).attach = s.attach := rfl

/-! `modRow`. -/

@[simp] theorem modRow_pending (r : Nat) (f : RowSt → RowSt) : (modRow s r f).pending = s.pending := rfl
@[simp] theorem modRow_fresh (r : Nat) (f : RowSt → RowSt) : (modRow s r f).fresh = s.fresh := rfl
@[simp] theorem modRow_outbox (r : Nat) (f : RowSt → RowSt) : (modRow s r f).outbox = s.outbox := rfl
@[simp] theorem modRow_mem (r : Nat) (f : RowSt → RowSt) : (modRow s r f).mem = s.mem := rfl
@[simp] theorem modRow_poison (r : Nat) (f : RowSt → RowSt) : (modRow s r f).poison = s.poison := rfl
@[simp] theorem modRow_upsets (r : Nat) (f : RowSt → RowSt) : (modRow s r f).upsets = s.upsets := rfl
@[simp] theorem modRow_regs (r : Nat) (f : RowSt → RowSt) : (modRow s r f).regs = s.regs := rfl
@[simp] theorem modRow_cores (r : Nat) (f : RowSt → RowSt) : (modRow s r f).cores = s.cores := rfl
@[simp] theorem modRow_chans (r : Nat) (f : RowSt → RowSt) : (modRow s r f).chans = s.chans := rfl
@[simp] theorem modRow_dmaPtr (r : Nat) (f : RowSt → RowSt) : (modRow s r f).dmaPtr = s.dmaPtr := rfl
@[simp] theorem modRow_gcs (r : Nat) (f : RowSt → RowSt) : (modRow s r f).gcs = s.gcs := rfl
@[simp] theorem modRow_plus (r : Nat) (f : RowSt → RowSt) : (modRow s r f).plus = s.plus := rfl
@[simp] theorem modRow_reds (r : Nat) (f : RowSt → RowSt) : (modRow s r f).reds = s.reds := rfl
@[simp] theorem modRow_stys (r : Nat) (f : RowSt → RowSt) : (modRow s r f).stys = s.stys := rfl
@[simp] theorem modRow_edges (r : Nat) (f : RowSt → RowSt) : (modRow s r f).edges = s.edges := rfl
@[simp] theorem modRow_hbms (r : Nat) (f : RowSt → RowSt) : (modRow s r f).hbms = s.hbms := rfl
@[simp] theorem modRow_dies (r : Nat) (f : RowSt → RowSt) : (modRow s r f).dies = s.dies := rfl
@[simp] theorem modRow_links (r : Nat) (f : RowSt → RowSt) : (modRow s r f).links = s.links := rfl
@[simp] theorem modRow_torter (r : Nat) (f : RowSt → RowSt) : (modRow s r f).torter = s.torter := rfl
@[simp] theorem modRow_secure (r : Nat) (f : RowSt → RowSt) : (modRow s r f).secure = s.secure := rfl
@[simp] theorem modRow_supply (r : Nat) (f : RowSt → RowSt) : (modRow s r f).supply = s.supply := rfl
@[simp] theorem modRow_arrived (r : Nat) (f : RowSt → RowSt) : (modRow s r f).arrived = s.arrived := rfl
@[simp] theorem modRow_asked (r : Nat) (f : RowSt → RowSt) : (modRow s r f).asked = s.asked := rfl
@[simp] theorem modRow_attach (r : Nat) (f : RowSt → RowSt) : (modRow s r f).attach = s.attach := rfl

/-! `modTorter`. -/

@[simp] theorem modTorter_pending (f : Torter → Torter) : (modTorter s f).pending = s.pending := rfl
@[simp] theorem modTorter_fresh (f : Torter → Torter) : (modTorter s f).fresh = s.fresh := rfl
@[simp] theorem modTorter_outbox (f : Torter → Torter) : (modTorter s f).outbox = s.outbox := rfl
@[simp] theorem modTorter_mem (f : Torter → Torter) : (modTorter s f).mem = s.mem := rfl
@[simp] theorem modTorter_poison (f : Torter → Torter) : (modTorter s f).poison = s.poison := rfl
@[simp] theorem modTorter_upsets (f : Torter → Torter) : (modTorter s f).upsets = s.upsets := rfl
@[simp] theorem modTorter_regs (f : Torter → Torter) : (modTorter s f).regs = s.regs := rfl
@[simp] theorem modTorter_cores (f : Torter → Torter) : (modTorter s f).cores = s.cores := rfl
@[simp] theorem modTorter_chans (f : Torter → Torter) : (modTorter s f).chans = s.chans := rfl
@[simp] theorem modTorter_dmaPtr (f : Torter → Torter) : (modTorter s f).dmaPtr = s.dmaPtr := rfl
@[simp] theorem modTorter_gcs (f : Torter → Torter) : (modTorter s f).gcs = s.gcs := rfl
@[simp] theorem modTorter_plus (f : Torter → Torter) : (modTorter s f).plus = s.plus := rfl
@[simp] theorem modTorter_reds (f : Torter → Torter) : (modTorter s f).reds = s.reds := rfl
@[simp] theorem modTorter_stys (f : Torter → Torter) : (modTorter s f).stys = s.stys := rfl
@[simp] theorem modTorter_edges (f : Torter → Torter) : (modTorter s f).edges = s.edges := rfl
@[simp] theorem modTorter_hbms (f : Torter → Torter) : (modTorter s f).hbms = s.hbms := rfl
@[simp] theorem modTorter_dies (f : Torter → Torter) : (modTorter s f).dies = s.dies := rfl
@[simp] theorem modTorter_links (f : Torter → Torter) : (modTorter s f).links = s.links := rfl
@[simp] theorem modTorter_rows (f : Torter → Torter) : (modTorter s f).rows = s.rows := rfl
@[simp] theorem modTorter_secure (f : Torter → Torter) : (modTorter s f).secure = s.secure := rfl
@[simp] theorem modTorter_supply (f : Torter → Torter) : (modTorter s f).supply = s.supply := rfl
@[simp] theorem modTorter_arrived (f : Torter → Torter) : (modTorter s f).arrived = s.arrived := rfl
@[simp] theorem modTorter_asked (f : Torter → Torter) : (modTorter s f).asked = s.asked := rfl
@[simp] theorem modTorter_attach (f : Torter → Torter) : (modTorter s f).attach = s.attach := rfl

/-! `setStall`. -/

@[simp] theorem setStall_pending (g : Nat) (x : Option StallSt) : (setStall s g x).pending = s.pending := rfl
@[simp] theorem setStall_fresh (g : Nat) (x : Option StallSt) : (setStall s g x).fresh = s.fresh := rfl
@[simp] theorem setStall_outbox (g : Nat) (x : Option StallSt) : (setStall s g x).outbox = s.outbox := rfl
@[simp] theorem setStall_mem (g : Nat) (x : Option StallSt) : (setStall s g x).mem = s.mem := rfl
@[simp] theorem setStall_poison (g : Nat) (x : Option StallSt) : (setStall s g x).poison = s.poison := rfl
@[simp] theorem setStall_upsets (g : Nat) (x : Option StallSt) : (setStall s g x).upsets = s.upsets := rfl
@[simp] theorem setStall_regs (g : Nat) (x : Option StallSt) : (setStall s g x).regs = s.regs := rfl
@[simp] theorem setStall_cores (g : Nat) (x : Option StallSt) : (setStall s g x).cores = s.cores := rfl
@[simp] theorem setStall_chans (g : Nat) (x : Option StallSt) : (setStall s g x).chans = s.chans := rfl
@[simp] theorem setStall_dmaPtr (g : Nat) (x : Option StallSt) : (setStall s g x).dmaPtr = s.dmaPtr := rfl
@[simp] theorem setStall_gcs (g : Nat) (x : Option StallSt) : (setStall s g x).gcs = s.gcs := rfl
@[simp] theorem setStall_plus (g : Nat) (x : Option StallSt) : (setStall s g x).plus = s.plus := rfl
@[simp] theorem setStall_reds (g : Nat) (x : Option StallSt) : (setStall s g x).reds = s.reds := rfl
@[simp] theorem setStall_stys (g : Nat) (x : Option StallSt) : (setStall s g x).stys = s.stys := rfl
@[simp] theorem setStall_edges (g : Nat) (x : Option StallSt) : (setStall s g x).edges = s.edges := rfl
@[simp] theorem setStall_hbms (g : Nat) (x : Option StallSt) : (setStall s g x).hbms = s.hbms := rfl
@[simp] theorem setStall_dies (g : Nat) (x : Option StallSt) : (setStall s g x).dies = s.dies := rfl
@[simp] theorem setStall_links (g : Nat) (x : Option StallSt) : (setStall s g x).links = s.links := rfl
@[simp] theorem setStall_rows (g : Nat) (x : Option StallSt) : (setStall s g x).rows = s.rows := rfl
@[simp] theorem setStall_secure (g : Nat) (x : Option StallSt) : (setStall s g x).secure = s.secure := rfl
@[simp] theorem setStall_supply (g : Nat) (x : Option StallSt) : (setStall s g x).supply = s.supply := rfl
@[simp] theorem setStall_arrived (g : Nat) (x : Option StallSt) : (setStall s g x).arrived = s.arrived := rfl
@[simp] theorem setStall_asked (g : Nat) (x : Option StallSt) : (setStall s g x).asked = s.asked := rfl
@[simp] theorem setStall_attach (g : Nat) (x : Option StallSt) : (setStall s g x).attach = s.attach := rfl

/-! `modPath`. -/

@[simp] theorem modPath_pending (p : Nat) (f : PathSt → PathSt) : (modPath s p f).pending = s.pending := rfl
@[simp] theorem modPath_fresh (p : Nat) (f : PathSt → PathSt) : (modPath s p f).fresh = s.fresh := rfl
@[simp] theorem modPath_outbox (p : Nat) (f : PathSt → PathSt) : (modPath s p f).outbox = s.outbox := rfl
@[simp] theorem modPath_mem (p : Nat) (f : PathSt → PathSt) : (modPath s p f).mem = s.mem := rfl
@[simp] theorem modPath_poison (p : Nat) (f : PathSt → PathSt) : (modPath s p f).poison = s.poison := rfl
@[simp] theorem modPath_upsets (p : Nat) (f : PathSt → PathSt) : (modPath s p f).upsets = s.upsets := rfl
@[simp] theorem modPath_regs (p : Nat) (f : PathSt → PathSt) : (modPath s p f).regs = s.regs := rfl
@[simp] theorem modPath_cores (p : Nat) (f : PathSt → PathSt) : (modPath s p f).cores = s.cores := rfl
@[simp] theorem modPath_chans (p : Nat) (f : PathSt → PathSt) : (modPath s p f).chans = s.chans := rfl
@[simp] theorem modPath_dmaPtr (p : Nat) (f : PathSt → PathSt) : (modPath s p f).dmaPtr = s.dmaPtr := rfl
@[simp] theorem modPath_gcs (p : Nat) (f : PathSt → PathSt) : (modPath s p f).gcs = s.gcs := rfl
@[simp] theorem modPath_plus (p : Nat) (f : PathSt → PathSt) : (modPath s p f).plus = s.plus := rfl
@[simp] theorem modPath_reds (p : Nat) (f : PathSt → PathSt) : (modPath s p f).reds = s.reds := rfl
@[simp] theorem modPath_stys (p : Nat) (f : PathSt → PathSt) : (modPath s p f).stys = s.stys := rfl
@[simp] theorem modPath_edges (p : Nat) (f : PathSt → PathSt) : (modPath s p f).edges = s.edges := rfl
@[simp] theorem modPath_hbms (p : Nat) (f : PathSt → PathSt) : (modPath s p f).hbms = s.hbms := rfl
@[simp] theorem modPath_dies (p : Nat) (f : PathSt → PathSt) : (modPath s p f).dies = s.dies := rfl
@[simp] theorem modPath_links (p : Nat) (f : PathSt → PathSt) : (modPath s p f).links = s.links := rfl
@[simp] theorem modPath_rows (p : Nat) (f : PathSt → PathSt) : (modPath s p f).rows = s.rows := rfl
@[simp] theorem modPath_secure (p : Nat) (f : PathSt → PathSt) : (modPath s p f).secure = s.secure := rfl
@[simp] theorem modPath_supply (p : Nat) (f : PathSt → PathSt) : (modPath s p f).supply = s.supply := rfl
@[simp] theorem modPath_arrived (p : Nat) (f : PathSt → PathSt) : (modPath s p f).arrived = s.arrived := rfl
@[simp] theorem modPath_asked (p : Nat) (f : PathSt → PathSt) : (modPath s p f).asked = s.asked := rfl
@[simp] theorem modPath_attach (p : Nat) (f : PathSt → PathSt) : (modPath s p f).attach = s.attach := rfl

/-! `modRing`. -/

@[simp] theorem modRing_pending (q : Nat) (f : RingSt → RingSt) : (modRing s q f).pending = s.pending := rfl
@[simp] theorem modRing_fresh (q : Nat) (f : RingSt → RingSt) : (modRing s q f).fresh = s.fresh := rfl
@[simp] theorem modRing_outbox (q : Nat) (f : RingSt → RingSt) : (modRing s q f).outbox = s.outbox := rfl
@[simp] theorem modRing_mem (q : Nat) (f : RingSt → RingSt) : (modRing s q f).mem = s.mem := rfl
@[simp] theorem modRing_poison (q : Nat) (f : RingSt → RingSt) : (modRing s q f).poison = s.poison := rfl
@[simp] theorem modRing_upsets (q : Nat) (f : RingSt → RingSt) : (modRing s q f).upsets = s.upsets := rfl
@[simp] theorem modRing_regs (q : Nat) (f : RingSt → RingSt) : (modRing s q f).regs = s.regs := rfl
@[simp] theorem modRing_cores (q : Nat) (f : RingSt → RingSt) : (modRing s q f).cores = s.cores := rfl
@[simp] theorem modRing_chans (q : Nat) (f : RingSt → RingSt) : (modRing s q f).chans = s.chans := rfl
@[simp] theorem modRing_dmaPtr (q : Nat) (f : RingSt → RingSt) : (modRing s q f).dmaPtr = s.dmaPtr := rfl
@[simp] theorem modRing_gcs (q : Nat) (f : RingSt → RingSt) : (modRing s q f).gcs = s.gcs := rfl
@[simp] theorem modRing_plus (q : Nat) (f : RingSt → RingSt) : (modRing s q f).plus = s.plus := rfl
@[simp] theorem modRing_reds (q : Nat) (f : RingSt → RingSt) : (modRing s q f).reds = s.reds := rfl
@[simp] theorem modRing_stys (q : Nat) (f : RingSt → RingSt) : (modRing s q f).stys = s.stys := rfl
@[simp] theorem modRing_edges (q : Nat) (f : RingSt → RingSt) : (modRing s q f).edges = s.edges := rfl
@[simp] theorem modRing_hbms (q : Nat) (f : RingSt → RingSt) : (modRing s q f).hbms = s.hbms := rfl
@[simp] theorem modRing_dies (q : Nat) (f : RingSt → RingSt) : (modRing s q f).dies = s.dies := rfl
@[simp] theorem modRing_links (q : Nat) (f : RingSt → RingSt) : (modRing s q f).links = s.links := rfl
@[simp] theorem modRing_rows (q : Nat) (f : RingSt → RingSt) : (modRing s q f).rows = s.rows := rfl
@[simp] theorem modRing_secure (q : Nat) (f : RingSt → RingSt) : (modRing s q f).secure = s.secure := rfl
@[simp] theorem modRing_supply (q : Nat) (f : RingSt → RingSt) : (modRing s q f).supply = s.supply := rfl
@[simp] theorem modRing_arrived (q : Nat) (f : RingSt → RingSt) : (modRing s q f).arrived = s.arrived := rfl
@[simp] theorem modRing_asked (q : Nat) (f : RingSt → RingSt) : (modRing s q f).asked = s.asked := rfl
@[simp] theorem modRing_attach (q : Nat) (f : RingSt → RingSt) : (modRing s q f).attach = s.attach := rfl

/-! `modSecure`. -/

@[simp] theorem modSecure_pending (f : Secure → Secure) : (modSecure s f).pending = s.pending := rfl
@[simp] theorem modSecure_fresh (f : Secure → Secure) : (modSecure s f).fresh = s.fresh := rfl
@[simp] theorem modSecure_outbox (f : Secure → Secure) : (modSecure s f).outbox = s.outbox := rfl
@[simp] theorem modSecure_mem (f : Secure → Secure) : (modSecure s f).mem = s.mem := rfl
@[simp] theorem modSecure_poison (f : Secure → Secure) : (modSecure s f).poison = s.poison := rfl
@[simp] theorem modSecure_upsets (f : Secure → Secure) : (modSecure s f).upsets = s.upsets := rfl
@[simp] theorem modSecure_regs (f : Secure → Secure) : (modSecure s f).regs = s.regs := rfl
@[simp] theorem modSecure_cores (f : Secure → Secure) : (modSecure s f).cores = s.cores := rfl
@[simp] theorem modSecure_chans (f : Secure → Secure) : (modSecure s f).chans = s.chans := rfl
@[simp] theorem modSecure_dmaPtr (f : Secure → Secure) : (modSecure s f).dmaPtr = s.dmaPtr := rfl
@[simp] theorem modSecure_gcs (f : Secure → Secure) : (modSecure s f).gcs = s.gcs := rfl
@[simp] theorem modSecure_plus (f : Secure → Secure) : (modSecure s f).plus = s.plus := rfl
@[simp] theorem modSecure_reds (f : Secure → Secure) : (modSecure s f).reds = s.reds := rfl
@[simp] theorem modSecure_stys (f : Secure → Secure) : (modSecure s f).stys = s.stys := rfl
@[simp] theorem modSecure_edges (f : Secure → Secure) : (modSecure s f).edges = s.edges := rfl
@[simp] theorem modSecure_hbms (f : Secure → Secure) : (modSecure s f).hbms = s.hbms := rfl
@[simp] theorem modSecure_dies (f : Secure → Secure) : (modSecure s f).dies = s.dies := rfl
@[simp] theorem modSecure_links (f : Secure → Secure) : (modSecure s f).links = s.links := rfl
@[simp] theorem modSecure_rows (f : Secure → Secure) : (modSecure s f).rows = s.rows := rfl
@[simp] theorem modSecure_torter (f : Secure → Secure) : (modSecure s f).torter = s.torter := rfl
@[simp] theorem modSecure_supply (f : Secure → Secure) : (modSecure s f).supply = s.supply := rfl
@[simp] theorem modSecure_arrived (f : Secure → Secure) : (modSecure s f).arrived = s.arrived := rfl
@[simp] theorem modSecure_asked (f : Secure → Secure) : (modSecure s f).asked = s.asked := rfl
@[simp] theorem modSecure_attach (f : Secure → Secure) : (modSecure s f).attach = s.attach := rfl

/-! `modSupply`. -/

@[simp] theorem modSupply_pending (f : Supply → Supply) : (modSupply s f).pending = s.pending := rfl
@[simp] theorem modSupply_fresh (f : Supply → Supply) : (modSupply s f).fresh = s.fresh := rfl
@[simp] theorem modSupply_outbox (f : Supply → Supply) : (modSupply s f).outbox = s.outbox := rfl
@[simp] theorem modSupply_mem (f : Supply → Supply) : (modSupply s f).mem = s.mem := rfl
@[simp] theorem modSupply_poison (f : Supply → Supply) : (modSupply s f).poison = s.poison := rfl
@[simp] theorem modSupply_upsets (f : Supply → Supply) : (modSupply s f).upsets = s.upsets := rfl
@[simp] theorem modSupply_regs (f : Supply → Supply) : (modSupply s f).regs = s.regs := rfl
@[simp] theorem modSupply_cores (f : Supply → Supply) : (modSupply s f).cores = s.cores := rfl
@[simp] theorem modSupply_chans (f : Supply → Supply) : (modSupply s f).chans = s.chans := rfl
@[simp] theorem modSupply_dmaPtr (f : Supply → Supply) : (modSupply s f).dmaPtr = s.dmaPtr := rfl
@[simp] theorem modSupply_gcs (f : Supply → Supply) : (modSupply s f).gcs = s.gcs := rfl
@[simp] theorem modSupply_plus (f : Supply → Supply) : (modSupply s f).plus = s.plus := rfl
@[simp] theorem modSupply_reds (f : Supply → Supply) : (modSupply s f).reds = s.reds := rfl
@[simp] theorem modSupply_stys (f : Supply → Supply) : (modSupply s f).stys = s.stys := rfl
@[simp] theorem modSupply_edges (f : Supply → Supply) : (modSupply s f).edges = s.edges := rfl
@[simp] theorem modSupply_hbms (f : Supply → Supply) : (modSupply s f).hbms = s.hbms := rfl
@[simp] theorem modSupply_dies (f : Supply → Supply) : (modSupply s f).dies = s.dies := rfl
@[simp] theorem modSupply_links (f : Supply → Supply) : (modSupply s f).links = s.links := rfl
@[simp] theorem modSupply_rows (f : Supply → Supply) : (modSupply s f).rows = s.rows := rfl
@[simp] theorem modSupply_torter (f : Supply → Supply) : (modSupply s f).torter = s.torter := rfl
@[simp] theorem modSupply_secure (f : Supply → Supply) : (modSupply s f).secure = s.secure := rfl
@[simp] theorem modSupply_arrived (f : Supply → Supply) : (modSupply s f).arrived = s.arrived := rfl
@[simp] theorem modSupply_asked (f : Supply → Supply) : (modSupply s f).asked = s.asked := rfl
@[simp] theorem modSupply_attach (f : Supply → Supply) : (modSupply s f).attach = s.attach := rfl

/-! `modAttach`. -/

@[simp] theorem modAttach_pending (f : Attach → Attach) : (modAttach s f).pending = s.pending := rfl
@[simp] theorem modAttach_fresh (f : Attach → Attach) : (modAttach s f).fresh = s.fresh := rfl
@[simp] theorem modAttach_outbox (f : Attach → Attach) : (modAttach s f).outbox = s.outbox := rfl
@[simp] theorem modAttach_mem (f : Attach → Attach) : (modAttach s f).mem = s.mem := rfl
@[simp] theorem modAttach_poison (f : Attach → Attach) : (modAttach s f).poison = s.poison := rfl
@[simp] theorem modAttach_upsets (f : Attach → Attach) : (modAttach s f).upsets = s.upsets := rfl
@[simp] theorem modAttach_regs (f : Attach → Attach) : (modAttach s f).regs = s.regs := rfl
@[simp] theorem modAttach_cores (f : Attach → Attach) : (modAttach s f).cores = s.cores := rfl
@[simp] theorem modAttach_chans (f : Attach → Attach) : (modAttach s f).chans = s.chans := rfl
@[simp] theorem modAttach_dmaPtr (f : Attach → Attach) : (modAttach s f).dmaPtr = s.dmaPtr := rfl
@[simp] theorem modAttach_gcs (f : Attach → Attach) : (modAttach s f).gcs = s.gcs := rfl
@[simp] theorem modAttach_plus (f : Attach → Attach) : (modAttach s f).plus = s.plus := rfl
@[simp] theorem modAttach_reds (f : Attach → Attach) : (modAttach s f).reds = s.reds := rfl
@[simp] theorem modAttach_stys (f : Attach → Attach) : (modAttach s f).stys = s.stys := rfl
@[simp] theorem modAttach_edges (f : Attach → Attach) : (modAttach s f).edges = s.edges := rfl
@[simp] theorem modAttach_hbms (f : Attach → Attach) : (modAttach s f).hbms = s.hbms := rfl
@[simp] theorem modAttach_dies (f : Attach → Attach) : (modAttach s f).dies = s.dies := rfl
@[simp] theorem modAttach_links (f : Attach → Attach) : (modAttach s f).links = s.links := rfl
@[simp] theorem modAttach_rows (f : Attach → Attach) : (modAttach s f).rows = s.rows := rfl
@[simp] theorem modAttach_torter (f : Attach → Attach) : (modAttach s f).torter = s.torter := rfl
@[simp] theorem modAttach_secure (f : Attach → Attach) : (modAttach s f).secure = s.secure := rfl
@[simp] theorem modAttach_supply (f : Attach → Attach) : (modAttach s f).supply = s.supply := rfl
@[simp] theorem modAttach_arrived (f : Attach → Attach) : (modAttach s f).arrived = s.arrived := rfl
@[simp] theorem modAttach_asked (f : Attach → Attach) : (modAttach s f).asked = s.asked := rfl

/-! `emit`. -/

@[simp] theorem emit_pending (e : Emission) : (emit s e).pending = s.pending := rfl
@[simp] theorem emit_fresh (e : Emission) : (emit s e).fresh = s.fresh := rfl
@[simp] theorem emit_mem (e : Emission) : (emit s e).mem = s.mem := rfl
@[simp] theorem emit_poison (e : Emission) : (emit s e).poison = s.poison := rfl
@[simp] theorem emit_upsets (e : Emission) : (emit s e).upsets = s.upsets := rfl
@[simp] theorem emit_regs (e : Emission) : (emit s e).regs = s.regs := rfl
@[simp] theorem emit_cores (e : Emission) : (emit s e).cores = s.cores := rfl
@[simp] theorem emit_chans (e : Emission) : (emit s e).chans = s.chans := rfl
@[simp] theorem emit_dmaPtr (e : Emission) : (emit s e).dmaPtr = s.dmaPtr := rfl
@[simp] theorem emit_gcs (e : Emission) : (emit s e).gcs = s.gcs := rfl
@[simp] theorem emit_plus (e : Emission) : (emit s e).plus = s.plus := rfl
@[simp] theorem emit_reds (e : Emission) : (emit s e).reds = s.reds := rfl
@[simp] theorem emit_stys (e : Emission) : (emit s e).stys = s.stys := rfl
@[simp] theorem emit_edges (e : Emission) : (emit s e).edges = s.edges := rfl
@[simp] theorem emit_hbms (e : Emission) : (emit s e).hbms = s.hbms := rfl
@[simp] theorem emit_dies (e : Emission) : (emit s e).dies = s.dies := rfl
@[simp] theorem emit_links (e : Emission) : (emit s e).links = s.links := rfl
@[simp] theorem emit_rows (e : Emission) : (emit s e).rows = s.rows := rfl
@[simp] theorem emit_torter (e : Emission) : (emit s e).torter = s.torter := rfl
@[simp] theorem emit_secure (e : Emission) : (emit s e).secure = s.secure := rfl
@[simp] theorem emit_supply (e : Emission) : (emit s e).supply = s.supply := rfl
@[simp] theorem emit_arrived (e : Emission) : (emit s e).arrived = s.arrived := rfl
@[simp] theorem emit_asked (e : Emission) : (emit s e).asked = s.asked := rfl
@[simp] theorem emit_attach (e : Emission) : (emit s e).attach = s.attach := rfl

end Sys2Proof.Machine
end

