-- ==== Sys2Proof/Laws/Tables.lean ====
section
/-! SUPPORT. Sparse tables: what is read after an entry has been set, and the parts of the module that are kept in them. -/

namespace Sys2Proof.Machine

variable {α : Type}

/-- The entry just set is the one found. -/
@[simp] theorem tlookup_tset_same (t : Tab α) (k : Nat) (v : α) : tlookup (tset t k v) k = some v := by
  induction t with
  | nil => simp [tset, tlookup]
  | cons p t ih =>
    obtain ⟨j, w⟩ := p
    by_cases h : k = j
    · simp [tset, tlookup, h]
    · by_cases g : k < j
      · simp [tset, tlookup, h, g]
      · simp [tset, tlookup, h, g, ih]

/-- Every other entry is found as before. -/
theorem tlookup_tset_other (t : Tab α) {k j : Nat} (v : α) (h : j ≠ k) : tlookup (tset t k v) j = tlookup t j := by
  induction t with
  | nil => simp [tset, tlookup, h]
  | cons p t ih =>
    obtain ⟨i, w⟩ := p
    by_cases e : k = i
    · subst e; simp [tset, tlookup, h]
    · by_cases g : k < i
      · by_cases l : j < k
        · have : j < i := by omega
          have : j ≠ i := by omega
          simp [tset, tlookup, *]
        · simp [tset, tlookup, *]
      · by_cases f : j = i
        · simp [tset, tlookup, *]
        · by_cases l : j < i
          · simp [tset, tlookup, *]
          · simp [tset, tlookup, *]

/-- The entry just set, by its value. -/
@[simp] theorem tget_tset_same (d : α) (t : Tab α) (k : Nat) (v : α) : tget d (tset t k v) k = v := by
  simp [tget]

/-- Every other entry keeps its value. -/
theorem tget_tset_other (d : α) (t : Tab α) {k j : Nat} (v : α) (h : j ≠ k) : tget d (tset t k v) j = tget d t j := by
  simp [tget, tlookup_tset_other t v h]

/-- A table with nothing listed holds its default. -/
@[simp] theorem tget_nil (d : α) (k : Nat) : tget d [] k = d := rfl

/-! The parts by number. -/

/-- Cores of different dies or numbers have different keys. -/
theorem coreKey_inj {d n e m : Nat} (hn : n < 256) (hm : m < 256) (h : coreKey d n = coreKey e m) : d = e ∧ n = m := by
  unfold coreKey at h; omega

/-- Channels have keys of their own. -/
theorem chanKey_inj {d c k e b j : Nat} (hc : c < 16) (hb : b < 16) (hk : k < 32) (hj : j < 32)
    (h : chanKey d c k = chanKey e b j) : d = e ∧ c = b ∧ k = j := by
  unfold chanKey at h; omega

/-- A core is read from the table of cores. -/
theorem getCore_congr {s t : State} (h : t.cores = s.cores) (d n : Nat) : getCore t d n = getCore s d n := by
  unfold getCore; rw [h]

@[simp] theorem getCore_setCore (s : State) (d n : Nat) (c : CoreSt) : getCore (setCore s d n c) d n = c := by
  simp [getCore, setCore]

@[simp] theorem getCore_modCore (s : State) (d n : Nat) (f : CoreSt → CoreSt) :
    getCore (modCore s d n f) d n = f (getCore s d n) := by
  simp [modCore]

/-- A core that is not changed. -/
theorem getCore_modCore_other (s : State) {d n e m : Nat} (f : CoreSt → CoreSt) (h : coreKey e m ≠ coreKey d n) :
    getCore (modCore s d n f) e m = getCore s e m := by
  simp [getCore, modCore, setCore, tget_tset_other _ _ _ h]

@[simp] theorem getDie_modDie (s : State) (d : Nat) (f : DieSt → DieSt) : getDie (modDie s d f) d = f (getDie s d) := by
  simp [getDie, modDie]

/-- A die's controller that is not changed. -/
theorem getDie_modDie_other (s : State) {d e : Nat} (f : DieSt → DieSt) (h : e ≠ d) : getDie (modDie s d f) e = getDie s e := by
  simp [getDie, modDie, tget_tset_other _ _ _ h]

@[simp] theorem getChan_modChan (s : State) (d c k : Nat) (f : ChanSt → ChanSt) :
    getChan (modChan s d c k f) d c k = f (getChan s d c k) := by
  simp [getChan, modChan]

/-- A channel that is not changed. -/
theorem getChan_modChan_other (s : State) {d c k e b j : Nat} (f : ChanSt → ChanSt) (h : chanKey e b j ≠ chanKey d c k) :
    getChan (modChan s d c k f) e b j = getChan s e b j := by
  simp [getChan, modChan, tget_tset_other _ _ _ h]

@[simp] theorem getLink_modLink (s : State) (d : Nat) (f : LinkSt → LinkSt) :
    getLink (modLink s d f) d = f (getLink s d) := by
  simp [getLink, modLink]

@[simp] theorem getRow_modRow (s : State) (r : Nat) (f : RowSt → RowSt) : getRow (modRow s r f) r = f (getRow s r) := by
  simp [getRow, modRow]

@[simp] theorem getEdge_setEdge (s : State) (d k : Nat) (e : EdgeSt) : getEdge (setEdge s d k e) d k = e := by
  simp [getEdge, setEdge]

@[simp] theorem getHbm_setHbm (s : State) (d k : Nat) (h : HbmSt) : getHbm (setHbm s d k h) d k = h := by
  simp [getHbm, setHbm]

@[simp] theorem getGc_setGc (s : State) (d c : Nat) (q : List GcCmd) : getGc (setGc s d c q) d c = q := by
  simp [getGc, setGc]

@[simp] theorem getPlu_setPlu (s : State) (d : Nat) (p : PluSt) : getPlu (setPlu s d p) d = p := by
  simp [getPlu, setPlu]

@[simp] theorem getRed_setRed (s : State) (d : Nat) (p : RedSt) : getRed (setRed s d p) d = p := by
  simp [getRed, setRed]

@[simp] theorem getSty_setSty (s : State) (d : Nat) (p : StySt) : getSty (setSty s d p) d = p := by
  simp [getSty, setSty]

@[simp] theorem getStall_setStall (s : State) (g : Nat) (x : Option StallSt) : getStall (setStall s g x) g = x := by
  simp [getStall, setStall, modTorter]

@[simp] theorem getPath_modPath (s : State) (p : Nat) (f : PathSt → PathSt) : getPath (modPath s p f) p = f (getPath s p) := by
  simp [getPath, modPath, modTorter]

/-- A path that is not changed. -/
theorem getPath_modPath_other (s : State) {p q : Nat} (f : PathSt → PathSt) (h : q ≠ p) :
    getPath (modPath s p f) q = getPath s q := by
  simp [getPath, modPath, modTorter, tget_tset_other _ _ _ h]

@[simp] theorem getRing_modRing (s : State) (q : Nat) (f : RingSt → RingSt) : getRing (modRing s q f) q = f (getRing s q) := by
  simp [getRing, modRing, modTorter]

/-! A scalar register: x0 reads 0 and keeps nothing (R67). -/

@[simp] theorem xget_zero (c : CoreSt) : xget c 0 = 0 := by simp [xget]

@[simp] theorem xset_zero (c : CoreSt) (v : Word) : xset c 0 v = c := by simp [xset]

@[simp] theorem xget_xset_same (c : CoreSt) {k : BitVec 5} (v : Word) (h : k ≠ 0) : xget (xset c k v) k = v := by
  unfold xget xset
  rw [if_neg h, if_neg h]
  exact tget_tset_same _ _ _ _

/-- A scalar register that is not written. -/
theorem xget_xset_other (c : CoreSt) {k j : BitVec 5} (v : Word) (h : j ≠ k) : xget (xset c k v) j = xget c j := by
  have h' : j.toNat ≠ k.toNat := fun e => h (BitVec.eq_of_toNat_eq e)
  by_cases hk : k = 0
  · subst hk; rw [xset_zero]
  · by_cases hj : j = 0
    · subst hj; rw [xget_zero, xget_zero]
    · unfold xget xset
      rw [if_neg hj, if_neg hk, if_neg hj]
      exact tget_tset_other _ _ _ h'

@[simp] theorem aget_aset_same (c : CoreSt) (k : BitVec 4) (v : Desc) : aget (aset c k v) k = v := by simp [aget, aset]

/-- A descriptor register that is not written. -/
theorem aget_aset_other (c : CoreSt) {k j : BitVec 4} (v : Desc) (h : j ≠ k) : aget (aset c k v) j = aget c j := by
  have h' : j.toNat ≠ k.toNat := fun e => h (BitVec.eq_of_toNat_eq e)
  simp [aget, aset, tget_tset_other _ _ _ h']

end Sys2Proof.Machine
end

