-- ==== Sys2Proof/Laws/Registers.lean ====
section
/-! SUPPORT. Registers: what a field reads after a field has been written, and what a register reads after another. -/

namespace Sys2Proof.Machine

@[simp] theorem regWord_setReg_same (s : State) (a : Nat) (w : Word) : regWord (setReg s a w) a = w := by
  simp [regWord, setReg]

/-- A register that is not written. -/
theorem regWord_setReg_other (s : State) {a b : Nat} (w : Word) (h : b ≠ a) : regWord (setReg s a w) b = regWord s b := by
  simp [regWord, setReg, tlookup_tset_other _ _ h]

/-- A register other than the field's. -/
theorem regWord_wf_other (s : State) {b a : Nat} {f : Fld} (v : Nat) (h : a ≠ b + f.off) :
    regWord (wf s b f v) a = regWord s a := regWord_setReg_other s _ h

/-- A register other than the counter. -/
theorem regWord_bump_other (s : State) {b a : Nat} {f : Fld} (k : Nat) (h : a ≠ b + f.off) :
    regWord (bump s b f k) a = regWord s a := regWord_setReg_other s _ h

/-- The counter itself. -/
@[simp] theorem regWord_bump_same (s : State) (b : Nat) (f : Fld) (k : Nat) :
    regWord (bump s b f k) (b + f.off) = regWord s (b + f.off) + BitVec.ofNat 64 k := regWord_setReg_same _ _ _

@[simp] theorem regWord_wf_same (s : State) (b : Nat) (f : Fld) (v : Nat) :
    regWord (wf s b f v) (b + f.off) = fset (regWord s (b + f.off)) f v := regWord_setReg_same _ _ _

/-- Bit `i` of a register word after a field has been written. -/
theorem getLsbD_fset (w : Word) (f : Fld) (v i : Nat) (hf : f.lo + f.width ≤ 64) :
    (fset w f v).getLsbD i =
      if f.lo ≤ i ∧ i < f.lo + f.width then v.testBit (i - f.lo) else w.getLsbD i := by
  by_cases hi : i < 64
  · have hm : (BitVec.ofNat 64 (2 ^ f.width - 1) <<< f.lo).getLsbD i = decide (f.lo ≤ i ∧ i < f.lo + f.width) := by
      simp only [BitVec.getLsbD_shiftLeft, BitVec.getLsbD_ofNat, Nat.testBit_two_pow_sub_one]
      by_cases h1 : i < f.lo
      · have : ¬ f.lo ≤ i := by omega
        simp [h1, this]
      · have h2 : i - f.lo < 64 := by omega
        have h3 : f.lo ≤ i := by omega
        have h4 : (i - f.lo < f.width) = (i < f.lo + f.width) := by
          apply propext; omega
        simp [h1, hi, h2, h3, h4]
    unfold fset fmask
    simp only [BitVec.getLsbD_or, BitVec.getLsbD_and, BitVec.getLsbD_not, hm, BitVec.getLsbD_shiftLeft, BitVec.getLsbD_ofNat]
    by_cases h : f.lo ≤ i ∧ i < f.lo + f.width
    · have h2 : ¬ i < f.lo := by omega
      have h3 : i - f.lo < 64 := by omega
      simp [h, hi, h2, h3]
    · simp [h, hi]
  · have : ¬ (f.lo ≤ i ∧ i < f.lo + f.width) := by omega
    simp [this, BitVec.getLsbD_of_ge _ _ (Nat.le_of_not_lt hi)]

/-- Bit `i` of a field's value. -/
theorem testBit_fget (w : Word) (f : Fld) (i : Nat) : (fget w f).testBit i = (decide (i < f.width) && w.getLsbD (f.lo + i)) := by
  simp [fget, BitVec.getLsbD]

/-- A field reads what was written to it, cut to its width. -/
theorem fget_fset_same (w : Word) (f : Fld) (v : Nat) (hf : f.lo + f.width ≤ 64) : fget (fset w f v) f = v % 2 ^ f.width := by
  apply Nat.eq_of_testBit_eq
  intro i
  rw [testBit_fget, getLsbD_fset _ _ _ _ hf, Nat.testBit_mod_two_pow]
  by_cases h : i < f.width
  · simp [h]
  · simp [h]

/-- A field that does not meet the one written. -/
theorem fget_fset_other (w : Word) (f g : Fld) (v : Nat) (hf : f.lo + f.width ≤ 64)
    (h : g.lo + g.width ≤ f.lo ∨ f.lo + f.width ≤ g.lo) : fget (fset w f v) g = fget w g := by
  apply Nat.eq_of_testBit_eq
  intro i
  rw [testBit_fget, testBit_fget, getLsbD_fset _ _ _ _ hf]
  by_cases hi : i < g.width
  · have : ¬ (f.lo ≤ g.lo + i ∧ g.lo + i < f.lo + f.width) := by omega
    rw [if_neg this]
  · simp [hi]

/-- A field just written. -/
theorem rf_wf_same (s : State) (b : Nat) (f : Fld) (v : Nat) (hf : f.lo + f.width ≤ 64) :
    rf (wf s b f v) b f = v % 2 ^ f.width := by
  simp [rf, fget_fset_same _ _ _ hf]

/-- A field of another register. -/
theorem rf_wf_reg (s : State) {b c : Nat} {f g : Fld} (v : Nat) (h : c + g.off ≠ b + f.off) :
    rf (wf s b f v) c g = rf s c g := by
  simp [rf, regWord_wf_other s v h]

/-- Another field of the same register. -/
theorem rf_wf_other (s : State) (b : Nat) (f g : Fld) (v : Nat) (hf : f.lo + f.width ≤ 64) (ho : g.off = f.off)
    (h : g.lo + g.width ≤ f.lo ∨ f.lo + f.width ≤ g.lo) : rf (wf s b f v) b g = rf s b g := by
  simp [rf, wf, ho, fget_fset_other _ _ _ _ hf h]

/-- A field of a register other than the counter. -/
theorem rf_bump_other (s : State) {b c : Nat} {f g : Fld} (k : Nat) (h : c + g.off ≠ b + f.off) :
    rf (bump s b f k) c g = rf s c g := by
  simp [rf, regWord_bump_other s k h]

/-- A field reads within its width. -/
theorem fget_lt (w : Word) (f : Fld) : fget w f < 2 ^ f.width := Nat.mod_lt _ (Nat.two_pow_pos _)

/-- Registers that are cleared read 0. -/
theorem regWord_clearRegs_mem (s : State) (b : Nat) (offs : List Nat) {o : Nat} (h : o ∈ offs) :
    regWord (clearRegs s b offs) (b + o) = 0 := by
  induction offs generalizing s with
  | nil => simp at h
  | cons p l ih =>
    unfold clearRegs
    rw [List.foldl_cons]
    by_cases hl : o ∈ l
    · exact ih _ hl
    · have hp : o = p := by simpa [hl] using h
      subst hp
      suffices ∀ t : State, regWord (l.foldl (fun s o => setReg s (b + o) 0) t) (b + o) = regWord t (b + o) by
        rw [this]; simp
      clear ih h
      induction l with
      | nil => intro t; rfl
      | cons q l ih =>
        intro t
        have hq : o ≠ q := fun e => hl (by simp [e])
        have hl' : o ∉ l := fun e => hl (by simp [e])
        rw [List.foldl_cons, ih hl', regWord_setReg_other _ _ (by omega)]

/-- Registers that are not cleared keep their value. -/
theorem regWord_clearRegs_other (s : State) (b : Nat) (offs : List Nat) {a : Nat} (h : ∀ o ∈ offs, a ≠ b + o) :
    regWord (clearRegs s b offs) a = regWord s a := by
  induction offs generalizing s with
  | nil => rfl
  | cons p l ih =>
    unfold clearRegs at *
    rw [List.foldl_cons, ih _ fun o ho => h o (by simp [ho]), regWord_setReg_other _ _ (h p (by simp))]

/-- Clearing registers touches nothing but registers. -/
theorem clearRegs_eq (s : State) (b : Nat) (offs : List Nat) :
    clearRegs s b offs = { s with regs := (clearRegs s b offs).regs } := by
  induction offs generalizing s with
  | nil => rfl
  | cons p l ih =>
    have e : clearRegs s b (p :: l) = clearRegs (setReg s (b + p) 0) b l := rfl
    rw [e, ih]
    rfl

@[simp] theorem clearRegs_mem (s : State) (b : Nat) (offs : List Nat) : (clearRegs s b offs).mem = s.mem := by
  rw [clearRegs_eq]

@[simp] theorem clearRegs_cores (s : State) (b : Nat) (offs : List Nat) : (clearRegs s b offs).cores = s.cores := by
  rw [clearRegs_eq]

@[simp] theorem clearRegs_secure (s : State) (b : Nat) (offs : List Nat) : (clearRegs s b offs).secure = s.secure := by
  rw [clearRegs_eq]

@[simp] theorem clearRegs_torter (s : State) (b : Nat) (offs : List Nat) : (clearRegs s b offs).torter = s.torter := by
  rw [clearRegs_eq]

end Sys2Proof.Machine
end

