-- ==== Sys2Proof/Laws/Memory.lean ====
section
/-! SUPPORT. Memory: its canonical form is kept by every write, and a byte reads what was last written to it. -/

namespace Sys2Proof.Machine

/-- A canonical list above a bound is canonical above a lower one. -/
theorem wfAbove_mono {a b : Nat} {m : List Host.Cell} (h : a ≤ b) (w : Memory.wfAbove b m = true) :
    Memory.wfAbove a m = true := by
  cases m with
  | nil => rfl
  | cons p t =>
    obtain ⟨k, c⟩ := p
    simp only [Memory.wfAbove, Bool.and_eq_true, decide_eq_true_eq] at w ⊢
    exact ⟨⟨by omega, w.1.2⟩, w.2⟩

/-- Nothing is listed below the bound. -/
theorem tlookup_below {b a : Nat} {m : List Host.Cell} (w : Memory.wfAbove b m = true) (h : a < b) : tlookup m a = none := by
  cases m with
  | nil => rfl
  | cons p t =>
    obtain ⟨k, c⟩ := p
    simp only [Memory.wfAbove, Bool.and_eq_true, decide_eq_true_eq] at w
    have : a ≠ k := by omega
    have : a < k := by omega
    simp [tlookup, *]

/-- Putting a byte keeps the canonical form above a bound that the address meets. -/
theorem wfAbove_mput {b a : Nat} {m : List Host.Cell} (v : Byte) (w : Memory.wfAbove b m = true) (h : b ≤ a) :
    Memory.wfAbove b (mput m a v) = true := by
  induction m generalizing b with
  | nil =>
    unfold mput
    split
    · rfl
    · simp [Memory.wfAbove, *]
  | cons p t ih =>
    obtain ⟨k, c⟩ := p
    simp only [Memory.wfAbove, Bool.and_eq_true, decide_eq_true_eq] at w
    unfold mput
    split
    · rename_i e
      subst e
      split
      · exact wfAbove_mono (by omega) w.2
      · simp [Memory.wfAbove, *]
    · split
      · split
        · simp [Memory.wfAbove, w]
        · rename_i hv
          have : a + 1 ≤ k := by omega
          simp [Memory.wfAbove, *]
      · have : k + 1 ≤ a := by omega
        simp [Memory.wfAbove, w, ih w.2 this]

/-- Putting a byte keeps memory canonical. -/
theorem wf_mput {m : List Host.Cell} (a : Nat) (v : Byte) (w : Memory.wf m = true) : Memory.wf (mput m a v) = true :=
  wfAbove_mput v w (Nat.zero_le _)

/-- Writing bytes keeps memory canonical. -/
theorem wf_mputs {m : List Host.Cell} (a : Nat) (bs : List Byte) (w : Memory.wf m = true) : Memory.wf (mputs m a bs) = true := by
  induction bs generalizing m a with
  | nil => exact w
  | cons b t ih => exact ih _ (wf_mput a b w)

/-- The byte just put. -/
theorem mget_mput_same {b : Nat} {m : List Host.Cell} (a : Nat) (v : Byte) (w : Memory.wfAbove b m = true) :
    mget (mput m a v) a = v := by
  induction m generalizing b with
  | nil =>
    unfold mput
    split
    · simp [mget, tlookup, *]
    · simp [mget, tlookup]
  | cons p t ih =>
    obtain ⟨k, c⟩ := p
    simp only [Memory.wfAbove, Bool.and_eq_true, decide_eq_true_eq] at w
    unfold mput
    split
    · rename_i e
      subst e
      split
      · simp [mget, tlookup_below w.2 (Nat.lt_succ_self _), *]
      · simp [mget, tlookup]
    · split
      · split
        · simp [mget, tlookup, *]
        · simp [mget, tlookup]
      · simpa [mget, tlookup, *] using ih w.2

/-- Every other byte reads as before. -/
theorem mget_mput_other {b a x : Nat} {m : List Host.Cell} (v : Byte) (w : Memory.wfAbove b m = true) (h : x ≠ a) :
    mget (mput m a v) x = mget m x := by
  induction m generalizing b with
  | nil =>
    unfold mput
    split
    · rfl
    · simp [mget, tlookup, h]
  | cons p t ih =>
    obtain ⟨k, c⟩ := p
    simp only [Memory.wfAbove, Bool.and_eq_true, decide_eq_true_eq] at w
    unfold mput
    split
    · rename_i e
      subst e
      split
      · by_cases l : x < a
        · simp [mget, tlookup, h, l, tlookup_below w.2 (show x < a + 1 by omega)]
        · simp [mget, tlookup, h, l]
      · simp [mget, tlookup, h]
    · split
      · split
        · rfl
        · by_cases l : x < a
          · have : x ≠ k := by omega
            have : x < k := by omega
            simp [mget, tlookup, *]
          · simp [mget, tlookup, *]
      · have i := ih w.2
        unfold mget at i ⊢
        by_cases e : x = k
        · simp [tlookup, e]
        · by_cases l : x < k
          · simp [tlookup, e, l]
          · simpa [tlookup, e, l] using i

/-- A byte outside the ones written reads as before. -/
theorem mget_mputs_other {m : List Host.Cell} {a x : Nat} (bs : List Byte) (w : Memory.wf m = true)
    (h : x < a ∨ a + bs.length ≤ x) : mget (mputs m a bs) x = mget m x := by
  induction bs generalizing m a with
  | nil => rfl
  | cons b t ih =>
    simp only [List.length_cons] at h
    rw [mputs, ih (wf_mput a b w) (by omega), mget_mput_other b w (by omega)]

/-- A byte written reads as written. -/
theorem mget_mputs_same {m : List Host.Cell} {a i : Nat} (bs : List Byte) (w : Memory.wf m = true) (h : i < bs.length) :
    mget (mputs m a bs) (a + i) = bs[i] := by
  induction bs generalizing m a i with
  | nil => simp at h
  | cons b t ih =>
    cases i with
    | zero =>
      rw [mputs, mget_mputs_other t (wf_mput a b w) (by omega)]
      exact mget_mput_same a b w
    | succ j =>
      have : a + (j + 1) = a + 1 + j := by omega
      rw [mputs, this, ih (wf_mput a b w) (by simpa using h)]
      rfl

/-- The bytes just written. -/
theorem mgets_mputs {m : List Host.Cell} (a : Nat) (bs : List Byte) (w : Memory.wf m = true) :
    mgets (mputs m a bs) a bs.length = bs := by
  have len : ∀ (m : List Host.Cell) (a n : Nat), (mgets m a n).length = n := by
    intro m a n
    induction n generalizing a with
    | zero => rfl
    | succ k ih => simp [mgets, ih]
  have get : ∀ (m : List Host.Cell) (n a i : Nat) (h : i < (mgets m a n).length), (mgets m a n)[i] = mget m (a + i) := by
    intro m n
    induction n with
    | zero => intro a i h; simp [mgets] at h
    | succ k ih =>
      intro a i h
      cases i with
      | zero => rfl
      | succ j =>
        have := ih (a + 1) j (by simpa [mgets] using h)
        simpa [mgets, Nat.add_assoc, Nat.add_comm 1 j] using this
  apply List.ext_getElem (len _ _ _)
  intro i h1 h2
  rw [get, mget_mputs_same bs w h2]

/-- Dropping entries keeps memory canonical. -/
theorem wf_filter {m : List Host.Cell} (p : Host.Cell → Bool) (w : Memory.wf m = true) : Memory.wf (m.filter p) = true := by
  suffices ∀ b, Memory.wfAbove b m = true → Memory.wfAbove b (m.filter p) = true from this 0 w
  clear w
  induction m with
  | nil => intro b _; rfl
  | cons q t ih =>
    intro b w
    obtain ⟨k, c⟩ := q
    simp only [Memory.wfAbove, Bool.and_eq_true, decide_eq_true_eq] at w
    by_cases h : p (k, c) = true
    · rw [List.filter_cons_of_pos h]
      simp [Memory.wfAbove, w, ih _ w.2]
    · rw [List.filter_cons_of_neg h]
      exact wfAbove_mono (by omega) (ih _ w.2)

/-- What every step of a fold keeps, the fold keeps. -/
theorem foldl_keeps {α β γ : Type} (f : α → γ) (g : α → β → α) (h : ∀ a b, f (g a b) = f a) (a : α) (l : List β) :
    f (l.foldl g a) = f a := by
  induction l generalizing a with
  | nil => rfl
  | cons b t ih => rw [List.foldl_cons, ih, h]

/-- Counting granules leaves memory alone. -/
@[simp] theorem countGranules_mem (s : State) (d : Nat) (f : Fld) (l len : Nat) : (countGranules s d f l len).mem = s.mem := by
  unfold countGranules
  exact foldl_keeps State.mem _ (fun a b => by split <;> rfl) s _

/-- Discarding an instruction buffer leaves memory alone. -/
@[simp] theorem dropIbuf_mem (s : State) (d l len : Nat) : (dropIbuf s d l len).mem = s.mem := by
  unfold dropIbuf
  split <;> rfl

/-- Putting bytes in place keeps memory canonical. -/
theorem putBytes_wf {s : State} (d l : Nat) (bs : List Byte) (w : Memory.wf s.mem = true) :
    Memory.wf (putBytes s d l bs).mem = true := wf_mputs _ _ w

/-- The memory after bytes have been written at a home whose stacks are whole. -/
theorem poke_mem (s : State) (d l : Nat) (bs : List Byte) (h : deadIn s d l bs.length = none) :
    (poke s d l bs).mem = mputs s.mem (memAt d l) bs := by
  unfold poke
  simp only [h, dropIbuf_mem]
  split <;> simp [putBytes]

/-- A write at its home keeps memory canonical. -/
theorem poke_wf {s : State} (d l : Nat) (bs : List Byte) (w : Memory.wf s.mem = true) :
    Memory.wf (poke s d l bs).mem = true := by
  have parts : ∀ (ps : List (Nat × Nat)) (t : State), Memory.wf t.mem = true →
      Memory.wf (ps.foldl (fun s p => if stackBad s d p.1 then s else putBytes s d p.1 (slice bs (p.1 - l) p.2)) t).mem = true := by
    intro ps
    induction ps with
    | nil => exact fun t w => w
    | cons p ps ih =>
      intro t w
      rw [List.foldl_cons]
      apply ih
      split
      · exact w
      · exact putBytes_wf _ _ _ w
  unfold poke
  simp only [dropIbuf_mem]
  split <;> (try simp only [countGranules_mem]) <;> split
  · exact putBytes_wf _ _ _ w
  · exact parts _ _ w
  · exact putBytes_wf _ _ _ w
  · exact parts _ _ w

/-- Bytes written at a home whose stacks are whole are the ones read there. -/
theorem peek_poke (s : State) (d l : Nat) (bs : List Byte) (w : Memory.wf s.mem = true)
    (h : deadIn s d l bs.length = none) : peek (poke s d l bs) d l bs.length = bs := by
  unfold peek
  rw [poke_mem _ _ _ _ h]
  exact mgets_mputs _ _ w

end Sys2Proof.Machine
end

