-- ==== Sys2Proof/Laws/Notices.lean ====
section
/-! SUPPORT. What a packet, a notice or an event that leaves the module can change: links, their count of flits, the
module controller and the dies' TAGs, and nothing else. -/

namespace Sys2Proof.Machine

/-- The registers that sending writes: a link's count of flits, its lanes and their status, and a die's count of flits
forwarded. -/
def SendReg (a : Nat) : Prop :=
  ∃ d, a = linkBlk d + LK_CNT_TXFLIT.off ∨ a = linkBlk d + LK_LANES_TXUSE.off ∨ a = linkBlk d + LK_STATUS_TXSPARE.off
    ∨ a = meshBlk d + MESH_CNT_FLITS.off

/-- `t` is `s` but for what the sending of packets, notices and events changes. -/
structure SentOnly (s t : State) : Prop where
  rest : t = { s with
    regs := t.regs, links := t.links, outbox := t.outbox, dies := t.dies, torter := t.torter, arrived := t.arrived }
  regs : ∀ a, ¬ SendReg a → regWord t a = regWord s a
  dies : ∀ d, { getDie t d with tag := 0 } = { getDie s d with tag := 0 }

namespace SentOnly

theorem refl (s : State) : SentOnly s s := ⟨rfl, fun _ _ => rfl, fun _ => rfl⟩

theorem trans {s t u : State} (h : SentOnly s t) (g : SentOnly t u) : SentOnly s u :=
  ⟨by rw [g.rest, h.rest], fun a ha => (g.regs a ha).trans (h.regs a ha), fun d => (g.dies d).trans (h.dies d)⟩

theorem mem {s t : State} (h : SentOnly s t) : t.mem = s.mem := by rw [h.rest]
theorem poison {s t : State} (h : SentOnly s t) : t.poison = s.poison := by rw [h.rest]
theorem cores {s t : State} (h : SentOnly s t) : t.cores = s.cores := by rw [h.rest]
theorem chans {s t : State} (h : SentOnly s t) : t.chans = s.chans := by rw [h.rest]
theorem secure {s t : State} (h : SentOnly s t) : t.secure = s.secure := by rw [h.rest]
theorem supply {s t : State} (h : SentOnly s t) : t.supply = s.supply := by rw [h.rest]

theorem core {s t : State} (h : SentOnly s t) (d n : Nat) : getCore t d n = getCore s d n := by
  simp [getCore, h.cores]

end SentOnly

theorem sent_modLink (s : State) (d : Nat) (f : LinkSt → LinkSt) : SentOnly s (modLink s d f) :=
  ⟨rfl, fun _ _ => rfl, fun _ => rfl⟩

theorem sent_emit (s : State) (e : Emission) : SentOnly s (emit s e) := ⟨rfl, fun _ _ => rfl, fun _ => rfl⟩

theorem sent_modTorter (s : State) (f : Torter → Torter) : SentOnly s (modTorter s f) := ⟨rfl, fun _ _ => rfl, fun _ => rfl⟩

theorem sent_wf (s : State) (b : Nat) (f : Fld) (v : Nat) (h : SendReg (b + f.off)) : SentOnly s (wf s b f v) :=
  ⟨rfl, fun _ n => regWord_wf_other s v (fun e => n (e ▸ h)), fun _ => rfl⟩

theorem sent_bump (s : State) (b : Nat) (f : Fld) (k : Nat) (h : SendReg (b + f.off)) : SentOnly s (bump s b f k) :=
  ⟨rfl, fun _ n => regWord_bump_other s k (fun e => n (e ▸ h)), fun _ => rfl⟩

/-- A fold of steps that send. -/
theorem sent_foldl {α : Type} (f : State → α → State) (h : ∀ s a, SentOnly s (f s a)) (l : List α) :
    ∀ s, SentOnly s (l.foldl f s) := by
  induction l with
  | nil => exact SentOnly.refl
  | cons a t ih => exact fun s => (h s a).trans (ih _)

theorem sent_showLanes (s : State) (d : Nat) (rx tx : BitVec 7) : SentOnly s (showLanes s d rx tx) := by
  have lanes : ∀ (s : State) (f : Fld) (v : Nat), f.off = LK_LANES_TXUSE.off → SentOnly s (wf s (linkBlk d) f v) :=
    fun s f v h => sent_wf s _ f v ⟨d, .inr (.inl (by rw [h]))⟩
  have status : ∀ (s : State) (f : Fld) (v : Nat), f.off = LK_STATUS_TXSPARE.off → SentOnly s (wf s (linkBlk d) f v) :=
    fun s f v h => sent_wf s _ f v ⟨d, .inr (.inr (.inl (by rw [h])))⟩
  unfold showLanes
  dsimp only
  refine SentOnly.trans ?_ (status _ _ _ rfl)
  refine SentOnly.trans ?_ (status _ _ _ rfl)
  refine SentOnly.trans ?_ (status _ _ _ rfl)
  exact (lanes s LK_LANES_RXUSE _ rfl).trans (lanes _ LK_LANES_TXUSE _ rfl)

theorem sent_drawTag (s : State) (d : Nat) : SentOnly s (drawTag s d).2 := by
  refine ⟨rfl, fun _ _ => rfl, fun e => ?_⟩
  by_cases h : e = d
  · subst h; simp [drawTag]
  · simp [drawTag, getDie_modDie_other s _ h]

theorem sent_alignOut (s : State) (d : Nat) : SentOnly s (alignOut s d) := by
  unfold alignOut
  dsimp only
  split
  · exact ((sent_showLanes s d _ _).trans (sent_modLink _ d _)).trans (sent_emit _ _)
  · exact (sent_modLink s d _).trans (sent_emit _ _)

theorem sent_slotOut (s : State) (d : Nat) (f : List Byte) : SentOnly s (slotOut s d f) := by
  unfold slotOut
  dsimp only
  split
  · exact ((sent_alignOut s d).trans (sent_modLink _ d _)).trans (sent_emit _ _)
  · exact (sent_modLink s d _).trans (sent_emit _ _)

theorem sent_sendFlit (s : State) (d ty : Nat) (nak : Bool) (p : Nat) (l : List Byte) :
    SentOnly s (sendFlit s d ty nak p l) := by
  unfold sendFlit
  dsimp only
  split
  · exact (sent_modLink s d _).trans (sent_slotOut _ d _)
  · exact ((sent_modLink s d _).trans (sent_bump _ _ LK_CNT_TXFLIT 1 ⟨d, .inl rfl⟩)).trans (sent_slotOut _ d _)

theorem sent_ctlPump (fuel : Nat) : ∀ (s : State) (d : Nat), SentOnly s (ctlPump fuel s d) := by
  induction fuel with
  | zero => intro s _; exact SentOnly.refl s
  | succ k ih =>
    intro s d
    unfold ctlPump
    split
    · exact SentOnly.refl s
    · split
      · exact SentOnly.refl s
      · exact ((sent_modLink s d _).trans (sent_sendFlit _ d _ _ _ _)).trans (ih _ _)

theorem sent_sendPackets (s : State) (d : Nat) (l : List (List Byte)) : SentOnly s (sendPackets s d l) :=
  sent_foldl _ (fun _ _ => sent_sendFlit _ d _ _ _ _) _ s

theorem sent_linkPump (s : State) (d : Nat) : SentOnly s (linkPump s d) := by
  unfold linkPump
  dsimp only
  split
  · exact SentOnly.refl s
  · split
    · exact ((sent_ctlPump _ s d).trans (sent_modLink _ d _)).trans (sent_sendPackets _ d _)
    · exact sent_ctlPump _ s d

theorem sent_countHops (s : State) (a b n : Nat) : SentOnly s (countHops s a b n) := by
  unfold countHops
  apply sent_foldl
  intro s p
  exact sent_bump s (meshBlk p.1) MESH_CNT_FLITS _ ⟨p.1, .inr (.inr (.inr rfl))⟩

theorem sent_linkQueue (s : State) (d k opc : Nat) (p : TPkt) : SentOnly s (linkQueue s d k opc p) :=
  ((sent_countHops s d k _).trans (sent_modLink _ k _)).trans (sent_linkPump _ k)

theorem sent_returnPoison (s : State) (d opc : Nat) (p : TPkt) : SentOnly s (returnPoison s d opc p) := by
  unfold returnPoison
  split
  · exact SentOnly.refl s
  · split
    · exact ⟨rfl, fun _ _ => rfl, fun _ => rfl⟩
    · split
      · exact SentOnly.refl s
      · dsimp only
        split
        · exact SentOnly.refl s
        · exact sent_linkQueue s d _ _ _

/-- A packet sent (R335). -/
theorem sent_sendPacket (s : State) (d m opc : Nat) (p : TPkt) : SentOnly s (sendPacket s d m opc p) := by
  unfold sendPacket
  split
  · exact SentOnly.refl s
  · dsimp only
    split
    · exact sent_returnPoison s d opc p
    · exact sent_linkQueue s d _ opc p

theorem sent_postEvent (s : State) (op : BitVec 16) (b : List Byte) : SentOnly s (postEvent s op b) := by
  unfold postEvent
  dsimp only
  split
  · exact sent_modTorter s _
  · exact sent_modTorter s _

theorem sent_sendNotice (s : State) (d m opc : Nat) (e : CrierEnt) (k : Nat) : SentOnly s (sendNotice s d m opc e k) :=
  (sent_drawTag s d).trans (sent_sendPacket _ d m opc _)

theorem sent_forwardNotice (s : State) (d : Nat) (e : CrierEnt) : SentOnly s (forwardNotice s d e) := by
  unfold forwardNotice
  split
  · split
    · exact sent_sendNotice s d _ 5 e 1
    · exact sent_postEvent s _ _
  · exact sent_postEvent s _ _

theorem sent_sendModCount (s : State) (d : Nat) (e : CrierEnt) : SentOnly s (sendModCount s d e) := by
  unfold sendModCount
  split
  · exact SentOnly.refl s
  · split
    · split
      · exact SentOnly.refl s
      · exact sent_sendNotice s d _ 6 e _
    · exact SentOnly.refl s

theorem sent_dropOldest (s : State) (d : Nat) : SentOnly s (dropOldest s d) := by
  unfold dropOldest
  split
  · exact SentOnly.refl s
  · dsimp only
    split
    · exact (sent_sendModCount s d _).trans (sent_modTorter _ _)
    · exact sent_modTorter s _

theorem sent_takeNotice (s : State) (d : Nat) (e : CrierEnt) (k : Nat) : SentOnly s (takeNotice s d e k) := by
  unfold takeNotice
  split
  · exact sent_modTorter s _
  · exact ((sent_dropOldest s d).trans (sent_modTorter _ _)).trans (sent_forwardNotice _ d e)

/-- A fault notice (R340-R342). -/
theorem sent_raiseNotice (s : State) (d kind m e i cls code : Nat) : SentOnly s (raiseNotice s d kind m e i cls code) :=
  sent_takeNotice s d _ 1

end Sys2Proof.Machine
end

