-- ==== Sys2Proof/Laws/Issue.lean ====
section
/-! SUPPORT. The gate of issue (R63-R66): what it makes of an instruction, by what the instruction's own part answers. -/

namespace Sys2Proof.Machine

/-- A command at a die that the part has. -/
theorem onDie_next {d : Nat} {s : State} (t : State) (h : dieOk s d = true) : onDie d s t = .next t := if_pos h

/-- A command at a die that the part does not have. -/
theorem onDie_fault {d : Nat} {s : State} (t : State) (h : dieOk s d = false) : onDie d s t = .fault .noSuchUnit :=
  if_neg (by simp [h])

/-- Nothing issues outside RUN, while an issue is held, or while requests sent before a reset are out (R63, R95, R96). -/
theorem seqIssue_idle {s : State} {d n : Nat} (i : Instr) (body : Body)
    (h : coreState s d n ≠ stRUN ∨ (getCore s d n).hold.isSome = true ∨ (getCore s d n).orphans ≠ []) :
    seqIssue s d n i body = s := by
  unfold seqIssue
  rw [if_pos]
  rcases h with h | h | h <;> simp [h]

/-- The state that an instruction's own part sees: the buffer fetched, WEN's count taken. -/
def atIssue (s : State) (d n : Nat) (h : Hdr) : State :=
  let s := fetchBuffer s d n (pcOf s d n)
  if h.wen then setSem s d n h.wsem.toNat (semVal s d n h.wsem.toNat - 1) else s

/-- A command of the core clock domain at a die that has that clock (R418). -/
theorem onClocked_next {d : Nat} {s : State} (t : State) (h : dieOk s d = true) (c : coresClocked s d = true) :
    onClocked d s t = .next t := by
  unfold onClocked
  rw [onDie_next _ h, if_pos c]

/-- A read of sound memory outside HBM finds its bytes and nothing else (R195). -/
theorem memRead_sound {s : State} {d l n : Nat} (h : memSound s d l n = true) (sram : ¬ l < 0x4800000000) :
    memRead s d l n .clean = (s, .bytes (peek s d l n)) := by
  unfold memSound at h
  simp only [Bool.and_eq_true, Option.isNone_iff_eq_none, List.isEmpty_iff] at h
  unfold memRead disturb findErrors
  simp only [h.2, List.foldl_nil, sram, if_false, h.1]

/-- A unit that is not disturbed needs no mending (R198). -/
theorem mendUnit_clean {s : State} {d n : Nat} (u : Nat) (h : (getCore s d n).upsets = []) : mendUnit s d n u = s := by
  unfold mendUnit
  rw [h]
  rfl

/-- An instruction word that can be taken is fetched into the buffer (R65, R83, R195). -/
theorem fetchWord_ok {s : State} {d n pc : Nat} (h : fetchOk s d n pc = true) (clean : (getCore s d n).upsets = []) :
    fetchWord s d n pc = (fetchBuffer s d n pc, none) := by
  unfold fetchOk at h
  simp only [Bool.and_eq_true, Bool.or_eq_true, Bool.not_eq_true'] at h
  have up : tget .clean (getCore s d n).upsets unitIbuf = .clean := by rw [clean]; rfl
  unfold fetchWord
  dsimp only
  rw [if_pos up]
  by_cases b : inBuffer (getCore s d n) pc = true
  · rw [if_pos b]
    simp [h.2]
  · rw [if_neg b, memRead_sound (h.1.resolve_left b) (by unfold coreAddr coreMemBase; omega)]
    simp [h.2]

/-- The core after its buffer has been filled. -/
theorem upsets_fetchBuffer (s : State) (d n pc : Nat) :
    (getCore (fetchBuffer s d n pc) d n).upsets = (getCore s d n).upsets := by
  rw [fetchBuffer, getCore_modCore]

/-- An instruction that issues at once does what its own part answers. -/
theorem seqIssue_runs {s : State} {d n : Nat} (i : Instr) (body : Body) (run : coreState s d n = stRUN)
    (free : (getCore s d n).hold = none) (settled : (getCore s d n).orphans = []) (clean : (getCore s d n).upsets = [])
    (backed : pcBacked (pcOf s d n) = true) (word : fetchOk s d n (pcOf s d n) = true)
    (taken : (hdrOf i).wen = true → 0 < semVal s d n (hdrOf i).wsem.toNat) :
    seqIssue s d n i body =
      settle (fetchBuffer s d n (pcOf s d n)) d n (pcOf s d n) i (body (atIssue s d n (hdrOf i)) (pcOf s d n)) := by
  unfold seqIssue atIssue
  dsimp only
  rw [if_neg (by simp [run, free, settled]), if_neg (by simp [backed]), fetchWord_ok word clean]
  have e : ∀ k, semVal (fetchBuffer s d n (pcOf s d n)) d n k = semVal s d n k := fun _ => rfl
  simp only [upsets_fetchBuffer, clean, List.isEmpty_nil, if_true, readUnits, List.foldl_nil]
  by_cases w : (hdrOf i).wen = true
  · have := taken w
    rw [if_pos w, if_neg (by rw [e]; omega), if_pos w]
  · rw [if_neg w, if_neg w]

/-- A semaphore at 0 holds an instruction with WEN (R66). -/
theorem seqIssue_waits {s : State} {d n : Nat} (i : Instr) (body : Body) (run : coreState s d n = stRUN)
    (free : (getCore s d n).hold = none) (settled : (getCore s d n).orphans = []) (clean : (getCore s d n).upsets = [])
    (backed : pcBacked (pcOf s d n) = true) (word : fetchOk s d n (pcOf s d n) = true) (wen : (hdrOf i).wen = true)
    (zero : semVal s d n (hdrOf i).wsem.toNat = 0) :
    seqIssue s d n i body = setHold (fetchBuffer s d n (pcOf s d n)) d n (some ⟨.sem, i⟩) := by
  unfold seqIssue
  dsimp only
  have e : ∀ k, semVal (fetchBuffer s d n (pcOf s d n)) d n k = semVal s d n k := fun _ => rfl
  rw [if_neg (by simp [run, free, settled]), if_neg (by simp [backed]), fetchWord_ok word clean]
  simp only [upsets_fetchBuffer, clean, List.isEmpty_nil, if_true, readUnits, List.foldl_nil]
  rw [if_pos wen, if_pos (by rw [e]; exact zero)]

/-- The program counter moves to an offset at which no loop ends. -/
theorem landAt_plain {s : State} {d n p : Nat} (hp : p < 0x200000)
    (h : ∀ l ∈ (getCore s d n).loops.head?, ¬ (l.stop = p ∧ l.depth = (getCore s d n).rets.length)) :
    landAt s d n p = setPc (setCore s d n (getCore s d n)) d n p := by
  have e : arrive ((getCore s d n).loops.length + 1) (getCore s d n) p = (getCore s d n, p) := by
    unfold arrive
    split
    · rfl
    · rename_i l rest hl
      have := h l (by simp [hl])
      rw [if_neg (by simpa using this)]
  unfold landAt
  rw [e]
  exact if_pos hp

/-! Registers of a core by address. -/

/-- A unit mended changes no register. -/
theorem mendUnit_regWord (s : State) (d n u a : Nat) : regWord (mendUnit s d n u) a = regWord s a := by
  unfold mendUnit
  split <;> rfl

theorem mendUnit_rf (s : State) (d n u b : Nat) (f : Fld) : rf (mendUnit s d n u) b f = rf s b f := by
  unfold rf
  rw [mendUnit_regWord]

/-- A register other than a semaphore's. -/
theorem regWord_setSem_other (s : State) {d n k a : Nat} (v : Nat) (h : a ≠ coreBlk d n + 8 * k + SEM_VALUE.off) :
    regWord (setSem s d n k v) a = regWord s a := by
  unfold setSem
  rw [regWord_wf_other _ _ h, mendUnit_regWord]

/-- Semaphores of a core have registers of their own. -/
theorem semVal_setSem {s : State} {d n k q v : Nat} (hv : v < 65536) :
    semVal (setSem s d n k v) d n q = if q = k then v else semVal s d n q := by
  unfold semVal setSem
  split
  · rename_i e
    subst e
    rw [rf_wf_same _ _ _ _ (by decide)]
    exact Nat.mod_eq_of_lt hv
  · rw [rf_wf_reg _ _ (by simp only [SEM_VALUE]; omega), mendUnit_rf]

/-- A signal whose sum fits (R71). -/
theorem semSignal_fits {s : State} {d n k c src : Nat} (f : Word) (h : semVal s d n k + c ≤ 65535) :
    semSignal s d n k c src f = setSem s d n k (semVal s d n k + c) := by
  unfold semSignal
  exact if_neg (by omega)

theorem coreState_setSem (s : State) (d n k v : Nat) (hk : k < 64) : coreState (setSem s d n k v) d n = coreState s d n := by
  unfold coreState setSem
  rw [rf_wf_reg _ _ (by simp only [SEM_VALUE, CORE_STATUS_STATE]; omega), mendUnit_rf]

theorem pcOf_setSem (s : State) (d n k v : Nat) (hk : k < 64) : pcOf (setSem s d n k v) d n = pcOf s d n := by
  unfold pcOf setSem
  rw [rf_wf_reg _ _ (by simp only [SEM_VALUE, CORE_PC_PC]; omega), mendUnit_rf]

/-- A semaphore written leaves the core as it was where nothing in it is disturbed. -/
theorem cores_setSem {s : State} {d n : Nat} (k v : Nat) (h : (getCore s d n).upsets = []) :
    (setSem s d n k v).cores = s.cores := by
  unfold setSem
  rw [wf_cores, mendUnit_clean _ h]

/-- The program counter just set. -/
theorem pcOf_setPc (s : State) (d n p : Nat) (h : p % 16 = 0) (hp : p < 0x200000) : pcOf (setPc s d n p) d n = p := by
  unfold pcOf setPc
  rw [rf_wf_same _ _ _ _ (by decide)]
  simp only [CORE_PC_PC]
  omega

theorem semVal_setPc (s : State) (d n p k : Nat) : semVal (setPc s d n p) d n k = semVal s d n k := by
  unfold semVal setPc
  exact rf_wf_reg _ _ (by simp only [SEM_VALUE, CORE_PC_PC]; omega)

theorem semVal_countIssue (s : State) (d n k : Nat) (hk : k < 64) : semVal (countIssue s d n) d n k = semVal s d n k := by
  unfold semVal countIssue
  exact rf_bump_other _ _ (by simp only [SEM_VALUE, CNT_ISSUE]; omega)

end Sys2Proof.Machine
end

