-- ==== Sys2Proof/Laws/Executed.lean ====
section
/-! SUPPORT. An instruction whose part changes nothing but its own core executes whole, and its frame holds. -/

namespace Sys2Proof.Claims

open Sys2Proof.Machine

/-- The core that an instruction's own part sees is the one before it but for the instruction buffer. -/
theorem core_atIssue {s : State} {d n : Nat} (h : Hdr) (clean : (getCore s d n).upsets = []) :
    ∃ b, getCore (atIssue s d n h) d n = { getCore s d n with ibuf := b } := by
  have e : ∃ b, getCore (fetchBuffer s d n (pcOf s d n)) d n = { getCore s d n with ibuf := b } :=
    ⟨_, by rw [fetchBuffer, getCore_modCore]⟩
  unfold atIssue
  dsimp only
  split
  · rw [getCore_congr (cores_setSem _ _ (by rw [upsets_fetchBuffer]; exact clean))]
    exact e
  · exact e

/-- The semaphores that it sees. -/
theorem semVal_atIssue {s : State} {c : CoreId} {h : Hdr} {k : Nat} :
    semVal (atIssue s c.die.val c.n.val h) c.die.val c.n.val k = semTaken s c h k := by
  have hb : ∀ q, semVal s c.die.val c.n.val q < 65536 := fun q => fget_lt _ _
  have hf : ∀ q, semVal (fetchBuffer s c.die.val c.n.val (pcOf s c.die.val c.n.val)) c.die.val c.n.val q
    = semVal s c.die.val c.n.val q := fun q => rfl
  unfold atIssue semTaken
  dsimp only
  by_cases w : h.wen = true
  · rw [if_pos w, hf, semVal_setSem (by have := hb h.wsem.toNat; omega)]
    by_cases e : k = h.wsem.toNat
    · simp [w, e]
    · rw [if_neg e, if_neg (by simp [e])]; rfl
  · rw [if_neg w, if_neg (by simp [w])]; rfl

/-- What registers it sees: all but the semaphore of WEN. -/
theorem regWord_atIssue (s : State) (c : CoreId) (h : Hdr) {a : Nat}
    (ha : ¬ (h.wen = true ∧ a = slotOf c + 8 * h.wsem.toNat + SEM_VALUE.off)) :
    regWord (atIssue s c.die.val c.n.val h) a = regWord s a := by
  unfold atIssue
  dsimp only
  by_cases w : h.wen = true
  · rw [if_pos w]
    exact regWord_setSem_other _ _ (fun e => ha ⟨w, e⟩)
  · rw [if_neg w]; rfl

/-- Other cores are as before. -/
theorem cores_atIssue {s : State} {c : CoreId} (h : Hdr) (clean : (coreAt s c).upsets = []) :
    OtherCores s (atIssue s c.die.val c.n.val h) c := by
  intro e m hne
  have hk : coreKey e.val m.val ≠ coreKey c.die.val c.n.val := by
    intro hk
    obtain ⟨h1, h2⟩ := coreKey_inj m.isLt c.n.isLt hk
    exact hne (by rw [Fin.ext h1, Fin.ext h2])
  have : getCore (fetchBuffer s c.die.val c.n.val (pcOf s c.die.val c.n.val)) e.val m.val = getCore s e.val m.val :=
    getCore_modCore_other _ _ hk
  unfold atIssue
  dsimp only
  split
  · rw [getCore_congr (cores_setSem _ _ (by rw [upsets_fetchBuffer]; exact clean))]
    exact this
  · exact this

/-- Everything else is as before. -/
theorem rest_atIssue (s : State) (d n : Nat) (h : Hdr) :
    atIssue s d n h = { s with regs := (atIssue s d n h).regs, cores := (atIssue s d n h).cores } := by
  unfold atIssue
  dsimp only
  split
  · unfold setSem mendUnit
    split <;> rfl
  · rfl

/-- `t` is `s` but for registers and cores. -/
def RegsCores (s t : State) : Prop := t = { s with regs := t.regs, cores := t.cores }

theorem RegsCores.trans {s t u : State} (h : RegsCores s t) (g : RegsCores t u) : RegsCores s u := by
  unfold RegsCores at *
  rw [g, h]

theorem regsCores_setReg (s : State) (a : Nat) (w : Word) : RegsCores s (setReg s a w) := rfl

theorem regsCores_setCore (s : State) (d n : Nat) (k : CoreSt) : RegsCores s (setCore s d n k) := rfl

theorem regsCores_setSem (s : State) (d n k v : Nat) : RegsCores s (setSem s d n k v) := by
  unfold setSem mendUnit
  split <;> rfl

/-- What the gate makes of a part that is done with its core changed to `k`. -/
theorem settle_done (s0 u : State) (d n pc p : Nat) (i : Instr) (k : CoreSt) (hp : p < 0x200000) (loops : NoLoopEnds k p) :
    settle s0 d n pc i (.done (setCore u d n k) p)
      = complete (setPc (setCore (countIssue (setCore u d n k) d n) d n k) d n p) d n (hdrOf i).sen (hdrOf i).ssem.toNat 0
          (slotAddr s0 d n pc) := by
  have e : getCore (countIssue (setCore u d n k) d n) d n = k :=
    (getCore_congr (bump_cores _ _ _ _) d n).trans (getCore_setCore u d n k)
  unfold settle
  dsimp only
  rw [landAt_plain hp (by rw [e]; exact loops), e]

/-- A core replaced leaves the others. -/
theorem other_setCore (s : State) (c : CoreId) (k : CoreSt) : OtherCores s (setCore s c.die.val c.n.val k) c := by
  intro e m hne
  have hk : coreKey e.val m.val ≠ coreKey c.die.val c.n.val := by
    intro hk
    obtain ⟨h1, h2⟩ := coreKey_inj m.isLt c.n.isLt hk
    exact hne (by rw [Fin.ext h1, Fin.ext h2])
  simp [getCore, setCore, tget_tset_other _ _ _ hk]

/-- The instruction's part answers `.done` with its core changed to `k`: it executes whole. -/
theorem executed_of_done {s : State} {c : CoreId} {h : Hdr} {i : Instr} {body : Body} {p : Nat} {k : CoreSt}
    (hh : hdrOf i = h) (hi : Issues s c h) (fits : SignalFits s c h) (hp : p < 0x200000) (hp16 : p % 16 = 0)
    (kept : k.upsets = []) (loops : NoLoopEnds k p)
    (hb : body (atIssue s c.die.val c.n.val h) (pcOf s c.die.val c.n.val)
      = .done (setCore (atIssue s c.die.val c.n.val h) c.die.val c.n.val k) p) :
    ∃ t, onClocked c.die.val s (seqIssue s c.die.val c.n.val i body) = .next t ∧ Executed s t c h p k := by
  obtain ⟨⟨hd, hk, hu, hr, hf, ho⟩, ht, hpc, hw⟩ := hi
  rw [onClocked_next _ hd hk, seqIssue_runs i body hr hf ho hu hpc hw (by rw [hh]; exact ht), hh, hb,
    settle_done _ _ _ _ _ _ _ _ hp loops, hh]
  suffices key : ∀ here, Executed s (complete (setPc (setCore (countIssue (setCore (atIssue s c.die.val c.n.val h) c.die.val
      c.n.val k) c.die.val c.n.val) c.die.val c.n.val k) c.die.val c.n.val p) c.die.val c.n.val h.sen h.ssem.toNat 0 here) c h
      p k from ⟨_, rfl, key _⟩
  clear hb
  intro here
  have hn := c.n.isLt
  have hs0 : ∀ q < 64, semVal (atIssue s c.die.val c.n.val h) c.die.val c.n.val q = semTaken s c h q :=
    fun q _ => semVal_atIssue
  have hr0 := fun a ha => regWord_atIssue s c h (a := a) ha
  have hc0 := cores_atIssue h hu
  have he0 := rest_atIssue s c.die.val c.n.val h
  generalize atIssue s c.die.val c.n.val h = u at *
  let v := setPc (setCore (countIssue (setCore u c.die.val c.n.val k) c.die.val c.n.val) c.die.val c.n.val k) c.die.val c.n.val p
  have vpc : pcOf v c.die.val c.n.val = p := pcOf_setPc _ _ _ _ hp16 hp
  have vsem : ∀ q < 64, semVal v c.die.val c.n.val q = semTaken s c h q := by
    intro q hq
    rw [← hs0 q hq, semVal_setPc]
    exact semVal_countIssue _ _ _ _ hq
  have viss : regWord v (coreBlk c.die.val c.n.val + CNT_ISSUE.off) = regWord s (coreBlk c.die.val c.n.val + CNT_ISSUE.off) + 1 := by
    rw [← hr0 _ (by rintro ⟨-, e⟩; simp only [SEM_VALUE, CNT_ISSUE, slotOf] at e; have := h.wsem.isLt; omega)]
    exact (regWord_wf_other _ _ (by simp only [CNT_ISSUE, CORE_PC_PC]; omega)).trans (regWord_bump_same _ _ _ _)
  have vcore : getCore v c.die.val c.n.val = k := (getCore_congr (setPc_cores _ _ _ _) _ _).trans (getCore_setCore _ _ _ _)
  have vregs : ∀ a, ¬ IssueRegs c h a → regWord v a = regWord s a := by
    intro a ha
    unfold IssueRegs at ha
    push Not at ha
    rw [← hr0 a (by rintro ⟨w, e⟩; exact ha.2.2.1 w e)]
    exact (regWord_wf_other _ _ ha.1).trans (regWord_bump_other _ _ ha.2.1)
  have vcores : OtherCores s v c := by
    intro e m hne
    rw [← hc0 e m hne]
    have a1 := other_setCore (countIssue (setCore u c.die.val c.n.val k) c.die.val c.n.val) c k e m hne
    have a2 := other_setCore u c k e m hne
    have a3 := getCore_congr (setPc_cores (setCore (countIssue (setCore u c.die.val c.n.val k) c.die.val c.n.val) c.die.val
      c.n.val k) c.die.val c.n.val p) e.val m.val
    have a4 := getCore_congr (bump_cores (setCore u c.die.val c.n.val k) (coreBlk c.die.val c.n.val) CNT_ISSUE 1) e.val m.val
    exact a3.trans (a1.trans (a4.trans a2))
  have vrest : v = { s with regs := v.regs, cores := v.cores } := by
    have e0 : RegsCores s u := he0
    exact (((e0.trans (regsCores_setCore _ _ _ _)).trans (regsCores_setReg _ _ _)).trans (regsCores_setCore _ _ _ _)).trans
      (regsCores_setReg _ _ _)
  show Executed s (complete v c.die.val c.n.val h.sen h.ssem.toNat 0 here) c h p k
  have vset := cores_setSem h.ssem.toNat (semVal v c.die.val c.n.val h.ssem.toNat + 1)
    (show (getCore v c.die.val c.n.val).upsets = [] by rw [vcore]; exact kept)
  unfold complete
  by_cases hse : h.sen = true
  · have hq := h.ssem.isLt
    have hfit := fits hse
    rw [if_pos hse, semSignal_fits here (by rw [vsem _ hq]; omega)]
    refine ⟨?_, ?_, ?_, ?_, ?_, ?_, ?_, ?_⟩
    · rw [pcOf_setSem _ _ _ _ _ hq]; exact vpc
    · intro q hq'
      rw [semVal_setSem (by rw [vsem _ hq]; omega)]
      unfold semAfter
      by_cases e : q = h.ssem.toNat
      · rw [if_pos e, if_pos ⟨hse, e⟩, vsem _ hq, e]
      · rw [if_neg e, if_neg (by rintro ⟨-, x⟩; exact e x), vsem _ hq']; rfl
    · rw [← viss]
      exact regWord_setSem_other _ _ (by simp only [SEM_VALUE, CNT_ISSUE, slotOf]; omega)
    · have e := (getCore_congr vset c.die.val c.n.val).trans vcore
      unfold coreAt
      rw [e]
    · intro a ha
      rw [← vregs a ha]
      exact regWord_setSem_other _ _ (fun e => ha (Or.inr (Or.inr (Or.inr ⟨hse, e⟩))))
    · intro e m hne
      exact (getCore_congr vset _ _).trans (vcores e m hne)
    · intro a; rw [setSem_mem, vrest]
    · exact RegsCores.trans vrest (regsCores_setSem _ _ _ _ _)
  · rw [if_neg hse]
    refine ⟨vpc, ?_, viss, ?_, vregs, vcores, ?_, vrest⟩
    · intro q hq
      rw [vsem q hq]; unfold semAfter; rw [if_neg (by rintro ⟨x, -⟩; exact hse x)]; rfl
    · unfold coreAt
      rw [vcore]
    · intro a; rw [vrest]

end Sys2Proof.Claims
end

