-- ==== Sys2Proof/Tests/Slice0.lean ====
section
/-! SUPPORT. The model's own tests: the check of operands, single commands with results worked out from the manual, and for
every statement states and operands that meet its hypotheses. -/

namespace Sys2Proof.Tests

open Sys2Proof.Machine Sys2Proof.Claims

set_option maxRecDepth 20000
set_option Elab.async false

/-! The check of operands: a good term and, for each check, one that it refuses. -/

def c0 : CoreId := ⟨0, 0⟩
def c1 : CoreId := ⟨0, 1⟩
def h0 : Hdr := ⟨false, 0, false, 0⟩
/-- Operands with only a FUNC field. -/
def fn (f : Nat) : SeqOp := ⟨0, 0, 0, 0, BitVec.ofNat 7 f, 0⟩
/-- Operands of a scalar instruction: XD, XA, XB, FUNC, IMM. -/
def sq (d a b f : Nat) (imm : Word) : SeqOp := ⟨BitVec.ofNat 5 d, BitVec.ofNat 5 a, BitVec.ofNat 5 b, 0, BitVec.ofNat 7 f, imm⟩
/-- A transport packet with an address, a length and data. -/
def tp (len : Nat) (data : List Byte) : TPkt := ⟨0, 0, BitVec.ofNat 9 len, 0, 0, 0, 0, 0, 0, data⟩

theorem test_wellFormed_accepts : ∀ i ∈ [Instr.movi c0 h0 (fn 0), .qpost c0 h0 (fn 4), .retire c0 h0 (fn 1),
    .account c0 h0 (fn 2), .barrierRelease 0 none 3, .registerWrite .region 8 0, .read 0 (tp 256 []), .write 0 (tp 1 [0]),
    .notice 0 (tp 32 (List.replicate 32 0)), .lugMonitor [0, 0, 0, 0]], wellFormed i = true := by decide

theorem test_wellFormed_refuses : ∀ i ∈ [Instr.qpost c0 h0 (fn 1), .draw c0 h0 (fn 2), .take c0 h0 (fn 3), .retire c0 h0 (fn 0),
    .send c0 h0 (fn 2), .account c0 h0 (fn 1), .barrierRelease 0 none 4, .registerWrite .region 4 0,
    .registerWrite .region (2 ^ 55) 0, .registerWrite (.power 0) 0x1000 0, .registerWrite .bar0 0x10000 0,
    .memoryRequest ⟨0, .cxl, false, 0, 0, [], .clean⟩, .memoryRequest ⟨0, .cxl, true, 0, 2, [0], .clean⟩,
    .memoryRequest ⟨0, .cxl, false, 0, 1, [0], .clean⟩,
    .flitReceive 0 [] 0 0, .flitReceive 0 (List.replicate 256 0) 137 0, .flitReceive 0 (List.replicate 256 0) 0 137, .read 0 (tp 257 []), .read 0 (tp 1 [0]),
    .wack 0 (tp 1 [0]), .write 0 (tp 2 [0]), .rdata 0 (tp 2 [0]), .notice 0 (tp 1 [0]), .count 0 (tp 1 [0]),
    .doorbell 0 0 [0] false, .windowRead (2 ^ 38) 1 .clean, .windowWrite (2 ^ 38) [0], .smbusBlockWrite 0 (List.replicate 33 0),
    .lugMonitor [0]], wellFormed i = false := by decide

/-! Small states: die 0 holds logical number 0 and may reach itself, and core 0 runs over words of NOP. -/

/-- Bytes put in memory of die 0. -/
def withMem (s : State) (l : Nat) (bs : List Byte) : State := { s with mem := mputs s.mem (memAt 0 l) bs }

/-- The word of NOP: CLASS 6, OP 0 (R64, R80). -/
def nopWord : List Byte := List.replicate 15 0 ++ [0x60]

/-- `base` with core memory empty. -/
def bare0 : State :=
  setReg (setReg (wf (setCoreState State.reset 0 0 stRUN) (dieBlk 0) DIE_LMOD_NOLMOD 0) (dieBlk 0 + 0x28) 1)
    (dieBlk 0 + 0x30) 1

def base : State := withMem bare0 0x110000000000 (nopWord ++ nopWord ++ nopWord ++ nopWord)

/-- `base` with core 0 changed. -/
def withCore (f : CoreSt → CoreSt) : State := modCore base 0 0 f

/-- `base` with scalar registers set. -/
def withX (l : List (Nat × Word)) : State := withCore fun k => { k with x := l }

/-- The first byte of core 0's memory slot. -/
def slot0 : Nat := 0x110000000000

/-- What a command answers, if it is a next state. -/
def after (i : Instr) (s : State) (f : State → Bool) : Bool :=
  match exec i s with
  | .next t => f t
  | _ => false

/-- Whether an instruction with these fields issues at once. -/
def canIssue (s : State) (c : CoreId) (h : Hdr) : Bool :=
  dieOk s c.die.val && coresClocked s c.die.val && (coreAt s c).upsets.isEmpty
    && coreState s c.die.val c.n.val == stRUN && (coreAt s c).hold.isNone && (coreAt s c).orphans.isEmpty
    && (!h.wen || decide (0 < semVal s c.die.val c.n.val h.wsem.toNat)) && pcBacked (pcOf s c.die.val c.n.val)
    && fetchOk s c.die.val c.n.val (pcOf s c.die.val c.n.val)

theorem issues_of {s : State} {c : CoreId} {h : Hdr} (w : canIssue s c h = true) : Issues s c h := by
  simp only [canIssue, Bool.and_eq_true, Bool.or_eq_true, beq_iff_eq, Option.isNone_iff_eq_none, List.isEmpty_iff,
    Bool.not_eq_true', decide_eq_true_eq] at w
  obtain ⟨⟨⟨⟨⟨⟨⟨⟨a, k⟩, u⟩, b⟩, e⟩, f⟩, g⟩, i⟩, j⟩ := w
  exact ⟨⟨a, k, u, b, e, f⟩, fun x => g.resolve_left (by simp [x]), i, j⟩

theorem not_register {l : Nat} (h : (match homeOf l with
    | some (.reg _) => false
    | _ => true) = true) : ¬ isRegister l := by
  rintro ⟨o, e⟩
  simp [e] at h

theorem fits (s : State) (c : CoreId) : SignalFits s c h0 := by intro h; cases h

/-! Commands, reset, memory. -/

theorem witness_StepTakesTheFrontCommand :
    ({ State.reset with pending := [.coreRun c0] }).pending = .coreRun c0 :: [] ∧ State.reset.pending = [] := by decide

theorem witness_ResetLeavesTheStatedValues : locate (hbmBlk 35 3 + 8) = some ⟨.hbm, 35, 3, 0, 8⟩
    ∧ (hbmBlk 35 3 + 8) % 8 = 0 ∧ regRows ⟨.hbm, 35, 3, 0, 8⟩ ≠ [] := by decide +kernel

theorem witness_MemoryStaysCanonical : Memory.wf base.mem = true
    ∧ step { base with pending := [.coreClrcnt c0] } = exec (.coreClrcnt c0) base
    ∧ after (.coreClrcnt c0) base (fun t => Memory.wf t.mem) = true := by
  refine ⟨by decide +kernel, rfl, by decide +kernel⟩

/-- The LX-24: dies 0-23, rows 0-3. -/
def lx24 : State :=
  { State.reset with secure := { Secure.reset with variant := { Secure.reset.variant with ndie := 24 } } }

theorem witness_AbsentUnitsStop : dieOf (.watchdog ⟨24, 0⟩) = some 24 ∧ ndie lx24 ≤ (24 : Die).val
    ∧ nrow lx24 ≤ (4 : Fin 6).val := by decide +kernel

theorem witness_CoreWordsRoundTrip : coreOf (.qpost c0 h0 (fn 4)) = some c0 ∧ wellFormed (.qpost c0 h0 (fn 4)) = true
    ∧ decode c0 0 = none ∧ (decode c0 0x40000060000000000000000000000005).isSome = true := by decide +kernel

/-! Issue, MV, CT. -/

/-- Core 0 holds an instruction, for a reason. -/
def held (why : HoldWhy) (i : Instr) : State := withCore fun k => { k with hold := some ⟨why, i⟩ }
/-- A header whose WEN waits for semaphore 5. -/
def hw : Hdr := ⟨true, 5, false, 0⟩
/-- A header whose SEN signals semaphore 7. -/
def hs : Hdr := ⟨false, 0, true, 7⟩
/-- CORE_PC of core 0 set. -/
def atPc (s : State) (p : Nat) : State := setPc s 0 0 p

theorem witness_IssueStopsHoldsAndResumes :
    (dieOk State.reset 0 = true ∧ coreState State.reset 0 0 ≠ stRUN)
    ∧ (coreAt (held .sem (.nop c0 hw (fn 0))) c0).hold.isSome = true
    ∧ (coreAt (withCore fun k => { k with orphans := [3] }) c0).orphans ≠ []
    ∧ (Running base c0 ∧ pcBacked (pcOf base 0 0) = true ∧ fetchOk base 0 0 (pcOf base 0 0) = true ∧ hw.wen = true
      ∧ semVal base 0 0 5 = 0)
    ∧ (∀ p ∈ [(Instr.semaphoreWaitRelease c0, HoldWhy.sem), (Instr.engineQueueFree c0, HoldWhy.queue),
        (Instr.fenceRelease c0, HoldWhy.fence)],
        (coreAt (held p.2 (.fence c0 h0 (fn 0))) c0).hold = some ⟨p.2, .fence c0 h0 (fn 0)⟩
          ∧ coresClocked (held p.2 (.fence c0 h0 (fn 0))) 0 = true ∧ (coreAt base c0).hold = none) := by
  refine ⟨by decide +kernel, by decide +kernel, by decide +kernel, ⟨(issues_of (h := h0) (by decide +kernel)).running,
    by decide +kernel⟩, ?_⟩
  simp only [List.forall_mem_cons, List.not_mem_nil, false_imp_iff, implies_true, and_true]
  decide +kernel

theorem witness_unbacked_pc : Running (atPc base 0x180000) c0 ∧ pcBacked (pcOf (atPc base 0x180000) 0 0) = false :=
  ⟨⟨by decide +kernel, by decide +kernel, by decide +kernel, by decide +kernel, by decide +kernel, by decide +kernel⟩,
    by decide +kernel⟩

theorem witness_words_that_fault :
    (let s := { base with poison := [memAt 0 slot0] }
     Running s c0 ∧ pcBacked (pcOf s 0 0) = true ∧ coreAddr 0 (pcOf s 0 0) = slot0 ∧ inBuffer (coreAt s c0) (pcOf s 0 0) = false
      ∧ upsetsIn s 0 slot0 16 = [] ∧ poisonIn s 0 slot0 16 = some slot0)
    ∧ (Running bare0 c0 ∧ pcBacked (pcOf bare0 0 0) = true ∧ memSound bare0 0 slot0 16 = true
      ∧ wordReserved (peek bare0 0 slot0 16) = true) :=
  ⟨⟨⟨by decide +kernel, by decide +kernel, by decide +kernel, by decide +kernel, by decide +kernel, by decide +kernel⟩,
      by decide +kernel⟩,
    ⟨by decide +kernel, by decide +kernel, by decide +kernel, by decide +kernel, by decide +kernel, by decide +kernel⟩,
    by decide +kernel⟩

/-- Issue is possible, the signal fits, and no loop ends after the instruction. -/
theorem witness_plain_issue : Issues base c0 h0 ∧ SignalFits base c0 h0
    ∧ NoLoopEnds (coreAt base c0) (pcOf base 0 0 + 16) :=
  ⟨issues_of (by decide +kernel), fits _ _, by unfold NoLoopEnds; decide +kernel⟩

/-- With WEN and its semaphore at 1, and SEN with its semaphore one below the limit. -/
theorem witness_semaphores_at_their_bounds :
    Issues (setSem base 0 0 5 1) c0 hw ∧ Issues (setSem base 0 0 7 65534) c0 hs ∧ SignalFits (setSem base 0 0 7 65534) c0 hs :=
  ⟨issues_of (by decide +kernel), issues_of (by decide +kernel), fun _ => by decide +kernel⟩

theorem witness_RegisterInstructionsWriteTheirResult :
    (fn 10).func.toNat % 16 ≤ 10 ∧ (fn 9).func.toNat ≤ 9
    ∧ DadvSays { Desc.zero with bsz := 1 } (sext 32 0) (sext 32 0) { Desc.zero with bsz := 1 }
    ∧ (∀ p ∈ [(0x38, 32), (0x40, 1), (0x48, 32), (0x50, 64)], (sq 0 0 0 0 (BitVec.ofNat 64 p.1)).imm.toNat % 4096 / 8 * 8 = p.1)
    ∧ 0xE00 ≤ (sq 0 0 0 0 0xE00).imm.toNat % 4096 := by
  refine ⟨by decide, by decide, ?_, by decide, by decide⟩
  unfold DadvSays; decide +kernel

/-- x1 holds an address of core 0's slot at a multiple of 64. -/
def withAddr : State := withX [(1, BitVec.ofNat 64 (slot0 + 0x40))]

theorem witness_LoadsAndStoresReachMemory :
    Issues withAddr c0 h0 ∧ EnginesIdle (coreAt withAddr c0)
    ∧ checkTarget withAddr 0 0 (some 0) false (xaImm withAddr 0 0 (sq 2 1 0 0 0)) 8 = .here 0 (slot0 + 0x40)
    ∧ checkTarget withAddr 0 0 (some 0) false (xaImm withAddr 0 0 (sq 2 1 0 0 0)) 64 = .here 0 (slot0 + 0x40)
    ∧ checkTarget withAddr 0 0 (some 0) true (xaImm withAddr 0 0 (sq 2 1 0 0 0)) 64 = .here 0 (slot0 + 0x40)
    ∧ (xaImm withAddr 0 0 (sq 2 1 0 0 0)).toNat % 64 = 0
    ∧ addrDie (xaImm withAddr 0 0 (sq 2 1 0 0 0)) = 0 ∧ addrLocal (xaImm withAddr 0 0 (sq 2 1 0 0 0)) = slot0 + 0x40
    ∧ routeDown withAddr 0 0 = false ∧ ¬ isRegister (slot0 + 0x40) ∧ deadIn withAddr 0 (slot0 + 0x40) 64 = none
    ∧ Awake withAddr 0 0 ∧ memSound withAddr 0 (slot0 + 0x40) 64 = true ∧ memSound withAddr 0 (slot0 + 0x40) 8 = true
    ∧ coresClocked withAddr 0 = true ∧ (coreAt withAddr c0).upsets = [] ∧ (coreAt withAddr c0).loadTag = none
    ∧ (coreAt (held .load (.ldx c0 h0 (sq 2 1 0 0 0))) c0).hold = some ⟨.load, .ldx c0 h0 (sq 2 1 0 0 0)⟩ := by
  refine ⟨issues_of (by decide +kernel), by unfold EnginesIdle; decide +kernel, by decide +kernel, by decide +kernel,
    by decide +kernel, by decide +kernel, by decide +kernel, by decide +kernel, by decide +kernel,
    not_register (by decide +kernel), by decide +kernel, .inl rfl, by decide +kernel, by decide +kernel, by decide +kernel,
    by decide +kernel, by decide +kernel, by decide +kernel⟩

/-- A state whose core 0 has a full return stack, and one with four loops. -/
def deepCall : State := withCore fun k => { k with rets := List.replicate 8 16 }
def deepLoop : State := withCore fun k => { k with loops := List.replicate 4 ⟨16, 64, 2, 0, 1, 0⟩ }

theorem witness_FaultsAtIssueArePrecise :
    IssueFault base c0 h0 (fn 11) (.alu c0 h0 (fn 11)) 0x01 0
    ∧ IssueFault base c0 h0 (fn 0) (.ssig c0 h0 (fn 0)) 0x01 0
    ∧ IssueFault base c0 h0 (sq 0 0 0 0 0x4800000000) (.ldx c0 h0 (sq 0 0 0 0 0x4800000000)) 0x04 0x4800000000
    ∧ IssueFault base c0 h0 (sq 0 0 0 0 0x18000) (.call c0 h0 (sq 0 0 0 0 0x18000)) 0x04 (BitVec.ofNat 64 (slot0 + 0x180000))
    ∧ IssueFault withAddr c0 h0 (sq 0 1 0 0 4) (.ldx c0 h0 (sq 0 1 0 0 4)) 0x05 (BitVec.ofNat 64 (slot0 + 0x44))
    ∧ IssueFault deepLoop c0 h0 (sq 0 0 0 0 0x100000001) (.loop c0 h0 (sq 0 0 0 0 0x100000001)) 0x07 0
    ∧ IssueFault base c0 h0 (fn 0) (.brk c0 h0 (fn 0)) 0x07 0
    ∧ IssueFault deepCall c0 h0 (fn 0) (.call c0 h0 (fn 0)) 0x08 0
    ∧ IssueFault base c0 h0 (fn 0) (.ret c0 h0 (fn 0)) 0x08 0
    ∧ IssueFault base c0 h0 (fn 0) (.bar c0 h0 (fn 0)) 0x09 0 := by
  refine ⟨?_, ?_, ?_, ?_, ?_, ?_, ?_, ?_, ?_, ?_⟩
  · exact ⟨rfl, .inl ⟨rfl, by decide⟩⟩
  · exact ⟨rfl, .inr (.inr (.inr (.inr ⟨.inl rfl, by decide⟩)))⟩
  · exact .inl ⟨(.ldx c0 h0 _, false, 8), by simp [accesses], rfl, .inl (by decide +kernel)⟩
  · exact .inr ⟨by decide +kernel, by decide +kernel, .inl rfl⟩
  · exact ⟨by decide +kernel, (.ldx c0 h0 _, false, 8), by simp [accesses], rfl, by decide +kernel, 0, 0, slot0 + 0x44,
      .inl (by decide +kernel)⟩
  · exact ⟨rfl, .inl ⟨rfl, by decide, by decide +kernel⟩⟩
  · exact ⟨rfl, .inr (.inl ⟨rfl, by decide +kernel⟩)⟩
  · exact ⟨rfl, .inl ⟨rfl, by decide +kernel, by decide +kernel⟩⟩
  · exact ⟨rfl, .inr ⟨rfl, by decide +kernel, by decide +kernel⟩⟩
  · exact ⟨rfl, rfl, by decide +kernel⟩

/-- Core 0 with a return address; in a loop at offset 16 of two instructions, at its first and at its last iteration. -/
def called : State := withCore fun k => { k with rets := [0x1FFFF0] }
def inLoop (iter : Nat) : State := atPc (withCore fun k => { k with loops := [⟨16, 48, 2, iter, 1, 0⟩] }) 32

theorem witness_BranchesAndLoopsMoveTheProgramCounter :
    (6 ≤ 6 ∧ ¬ BranchTaken 6 (0 - 1) 0 ∧ BranchTaken 0 0 0 ∧ BranchTaken 3 0 1)
    ∧ ((0x17FFF0 : Int) = pcOf base 0 0 + 16 * sext 24 (sq 0 0 0 0 0x17FFF).imm.toNat)
    ∧ (coreAt (withCore fun k => { k with rets := List.replicate 7 16 }) c0).rets.length < 8
    ∧ ((coreAt called c0).rets = 0x1FFFF0 :: [] ∧ 0x1FFFF0 % 16 = 0 ∧ 0x1FFFF0 < 0x200000
      ∧ ∀ f ∈ (coreAt called c0).loops.head?, f.depth ≠ (coreAt called c0).rets.length)
    ∧ ((coreAt (withCore fun k => { k with loops := List.replicate 3 ⟨16, 64, 2, 0, 1, 0⟩ }) c0).loops.length < 4)
    ∧ (Issues (inLoop 0) c0 h0 ∧ (coreAt (inLoop 0) c0).loops = [⟨16, 48, 2, 0, 1, 0⟩] ∧ 48 = pcOf (inLoop 0) 0 0 + 16)
    ∧ (Issues (inLoop 1) c0 h0 ∧ (coreAt (inLoop 1) c0).loops = [⟨16, 48, 2, 1, 1, 0⟩]) := by
  refine ⟨by simp [BranchTaken], by decide +kernel, by decide +kernel, by decide +kernel, by decide +kernel,
    ⟨issues_of (by decide +kernel), by decide +kernel, by decide +kernel⟩, issues_of (by decide +kernel), by decide +kernel⟩

theorem test_movi : after (.movi c0 h0 (sq 3 0 0 0 5)) base (fun t => xget (coreAt t c0) 3 == 5 && pcOf t 0 0 == 16) = true := by
  decide +kernel

theorem test_movi_x0 : after (.movi c0 h0 (sq 0 0 0 0 5)) base (fun t => xget (coreAt t c0) 0 == 0) = true := by
  decide +kernel

/-- SUB of 3 - 5 wraps (R78). -/
theorem test_alu_sub : after (.alu c0 h0 (sq 3 1 2 1 0)) (withX [(1, 3), (2, 5)])
    (fun t => xget (coreAt t c0) 3 == 0xFFFFFFFFFFFFFFFE) = true := by decide +kernel

/-- SRA keeps the sign (R78). -/
theorem test_alu_sra : after (.alu c0 h0 (sq 3 1 0 0x47 1)) (withX [(1, 0x8000000000000002)])
    (fun t => xget (coreAt t c0) 3 == 0xC000000000000001) = true := by decide +kernel

/-- DST then DLD: the bytes of R68 at their offsets, here ROWS at byte 16. -/
theorem test_stx : after (.stx c0 h0 (sq 0 1 2 0 0)) (withX [(1, BitVec.ofNat 64 slot0), (2, 0x0102)])
    (fun t => peek t 0 slot0 2 == [2, 1]) = true := by decide +kernel

theorem test_loop_sets_index : after (.loop c0 h0 (sq 4 0 0 0 0x200000003)) (withX [(4, 9)])
    (fun t => xget (coreAt t c0) 4 == 0 && (coreAt t c0).loops == [⟨16, 48, 3, 0, 4, 0⟩]) = true := by decide +kernel

theorem test_loop_zero_skips : after (.loop c0 h0 (sq 4 0 0 0 0x200000000)) base (fun t => pcOf t 0 0 == 48) = true := by
  decide +kernel

theorem test_nop_ends_body : after (.nop c0 h0 (fn 0)) (inLoop 0)
    (fun t => pcOf t 0 0 == 16 && xget (coreAt t c0) 1 == 1) = true := by decide +kernel

theorem test_call_ninth_faults : after (.call c0 h0 (fn 0)) deepCall
    (fun t => coreState t 0 0 == stFAULTED && regWord t (coreBlk 0 0 + 0x20) == 8) = true := by decide +kernel

/-! The worked example of R70: DADV by 5 rows and 12,352 columns. -/

def shard : Desc :=
  { base := 0x01A2000240000000, sbase := 0x01A2000250000000, rows := 512, cols := 24576, rstride := 24576, srstride := 768
    tid := 0, irow := 24576, ibase := 50331648, fmt := 3, bsz := 1, scaled := true }

theorem test_dadv_worked_example :
    after (.dadv c0 h0 ⟨0, 0, 0, 2, 0, 0x0000304000000005⟩) (withCore fun k => { k with a := [(2, shard)] })
      (fun t => aget (coreAt t c0) 2 == { shard with base := 0x01A2000240021040, sbase := 0x01A2000250001082, ibase := 50466880 })
      = true := by decide +kernel

theorem test_element_worked_example :
    let v := { shard with base := 0x01A2000240021040, sbase := 0x01A2000250001082, ibase := 50466880 }
    elemAddr v 3 7 = 0x01A2000240033047 ∧ scaleAddr v 3 7 = 0x01A2000250001982 := by decide +kernel

/-! Semaphores, fences, barriers. -/

/-- Immediate of SSIG, SWAIT, RSIG: semaphore and count. -/
def sg (q k : Nat) : SeqOp := sq 0 1 0 0 (BitVec.ofNat 64 (k * 65536 + q))
/-- `base` with semaphore 5 at a value. -/
def sem5 (v : Nat) : State := setSem base 0 0 5 v
/-- A core with a store that is not acknowledged. -/
def owing : State := withCore fun k => { k with stores := [⟨false, 0, 0, true, 0, 0⟩] }

theorem witness_SemaphoresCountSignalAndOverflow :
    (Issues (sem5 65534) c0 h0 ∧ (sg 5 1).imm.toNat / 2 ^ 16 % 2 ^ 16 = 1 ∧ (sg 5 1).imm.toNat % 64 = 5
      ∧ ∀ r < 64, semAfter (sem5 65534) c0 h0 r + (if r = 5 then 1 else 0) ≤ 65535)
    ∧ (65535 ≤ semTaken (sem5 65535) c0 h0 5 ∧ ∀ r < 64, semAfter (sem5 65535) c0 h0 r - (if r = 5 then 65535 else 0) ≤ 65535)
    ∧ semTaken (sem5 1) c0 h0 5 < 2
    ∧ 65535 < semTaken (sem5 65535) c0 h0 5 + 1
    ∧ (noLmod base 0 = false ∧ fencePermits base 0 (lmod base 0) 0 = true ∧ visible (coreAt base c0) = true
      ∧ c1.n.val = (xget (coreAt (withX [(1, 1)]) c0) (sg 5 1).xa).toNat % 256
      ∧ c0.n.val = (xget (coreAt base c0) (sg 5 1).xa).toNat % 256 ∧ c1 ≠ c0 ∧ (coreAt (withX [(1, 1)]) c1).upsets = []
      ∧ coresClocked base 0 = true)
    ∧ visible (coreAt owing c0) = false ∧ Issues owing c0 h0 := by
  refine ⟨⟨issues_of (by decide +kernel), by decide +kernel, by decide +kernel, ?_⟩, ⟨by decide +kernel, ?_⟩,
    by decide +kernel, by decide +kernel, by decide +kernel, by decide +kernel, issues_of (by decide +kernel)⟩ <;>
    (unfold semAfter semTaken; decide +kernel)

theorem witness_FenceWaitsForEveryWrite : (Issues base c0 h0 ∧ visible (coreAt base c0) = true)
    ∧ (Issues owing c0 h0 ∧ visible (coreAt owing c0) = false) :=
  ⟨⟨issues_of (by decide +kernel), by decide +kernel⟩, issues_of (by decide +kernel), by decide +kernel⟩

/-- Cores 0 and 1 take part in barrier 3 of cluster 0; core 0, or both, have arrived. -/
def barState (l : List (Fin 256)) : State :=
  let s := setReg (setCoreState base 0 1 stRUN) (clBlk 0 0 + 8 + 24) 3
  let s := modDie s 0 fun x => { x with arrived := [(barKey false 0 3, l)] }
  l.foldl (fun s n => modCore s 0 n.val fun k => { k with hold := some ⟨.barrier, .bar ⟨0, n⟩ h0 (sq 0 0 0 0 3)⟩ }) s

theorem witness_BarriersReleaseTogether :
    (Issues (barState []) c0 h0 ∧ barMember (barState []) 0 0 false 3 = true ∧ visible (coreAt (barState []) c0) = true)
    ∧ (∃ n ∈ barMembers (barState [0]) 0 (some 0) 3, ∀ x ∈ tget [] (getDie (barState [0]) 0).arrived (barKey false 0 3), x.val ≠ n)
    ∧ (coresClocked (barState [0, 1]) 0 = true ∧ (∀ n ∈ barMembers (barState [0, 1]) 0 (some 0) 3,
          ∃ x ∈ tget [] (getDie (barState [0, 1]) 0).arrived (barKey false 0 3), x.val = n)
      ∧ tget [] (getDie (barState [0, 1]) 0).arrived (barKey false 0 3) = [0, 1]
      ∧ ∀ x ∈ ([0, 1] : List (Fin 256)), (getCore (barState [0, 1]) 0 x.val).hold = some ⟨.barrier, .bar ⟨0, x⟩ h0 (sq 0 0 0 0 3)⟩
          ∧ pcOf (barState [0, 1]) 0 x.val < 0x180000 ∧ (getCore (barState [0, 1]) 0 x.val).upsets = []) := by
  refine ⟨⟨issues_of (by decide +kernel), by decide +kernel, by decide +kernel⟩, by decide +kernel, by decide +kernel,
    by decide +kernel, by decide +kernel, by decide +kernel⟩

theorem test_ssig_overflow : after (.ssig c0 h0 (sg 5 1)) (sem5 65535)
    (fun t => semVal t 0 0 5 == 65535 && coreState t 0 0 == stFAULTED && regWord t (coreBlk 0 0 + 0x20) == 6) = true := by
  decide +kernel

theorem test_swait_takes : after (.swait c0 h0 (sg 5 3)) (sem5 4) (fun t => semVal t 0 0 5 == 1 && pcOf t 0 0 == 16) = true := by
  decide +kernel

theorem test_rsig : after (.rsig c0 h0 (sg 5 3)) (withX [(1, 1)]) (fun t => semVal t 0 1 5 == 3) = true := by decide +kernel

theorem test_barrier_releases : after (.barrierRelease 0 (some 0) 3) (barState [0, 1])
    (fun t => pcOf t 0 0 == 16 && pcOf t 0 1 == 16) = true := by decide +kernel

/-! WAIT, HALT, the triggers, the stash. -/

/-- Core 0 waits in WAIT or HOLD. -/
def waits (o : SeqOp) : State := setCoreState (modCore base 0 0 fun k => { k with hold := some ⟨.wait, .wait c0 h0 o⟩ }) 0 0 stWAIT
def wdog (st : Nat) : State := wf (setCoreState base 0 0 st) (coreBlk 0 0) CORE_WDOG_LIMIT 1

theorem witness_WaitEndsAtAWakeCondition :
    (Issues (sem5 1) c0 h0 ∧ (∃ k < 64, (sq 0 0 0 0 0x20).imm.getLsbD k = true ∧ semTaken (sem5 1) c0 h0 k ≠ 0))
    ∧ ((fn 1).func.getLsbD 0 = true ∧ rf base (slotOf c0) CORE_WTIME_WTIME = 0)
    ∧ ((fn 0).func.getLsbD 0 = false ∧ ∀ k < 64, (fn 0).imm.getLsbD k = true → semTaken base c0 h0 k = 0)
    ∧ ((coreAt (waits (fn 1)) c0).hold = some ⟨.wait, .wait c0 h0 (fn 1)⟩ ∧ pcOf (waits (fn 1)) 0 0 < 0x180000)
    ∧ (coresClocked (waits (fn 0)) 0 = true ∧ (coreAt (waits (fn 0)) c0).upsets = []
      ∧ wakeTrue (waits (fn 0)) 0 0 (fn 0) = false) ∧ wakeTrue (setSem (waits (sq 0 0 0 0 0x20)) 0 0 5 1) 0 0 (sq 0 0 0 0 0x20) = true := by
  refine ⟨⟨issues_of (by decide +kernel), ⟨5, by decide, by decide +kernel, by decide +kernel⟩⟩, by decide +kernel,
    ⟨by decide, by decide +kernel⟩, by decide +kernel, by decide +kernel, by decide +kernel⟩

theorem witness_HaltEndsInDoneAndWatchdogFaults :
    ((coreAt (held .halt (.halt c0 h0 (fn 0))) c0).hold = some ⟨.halt, .halt c0 h0 (fn 0)⟩
      ∧ drained (coreAt (held .halt (.halt c0 h0 (fn 0))) c0) = true ∧ drained (coreAt owing c0) = false)
    ∧ (rf (wdog stRUN) (slotOf c0) CORE_WDOG_LIMIT ≠ 0 ∧ coreState (wdog stRUN) 0 0 = stRUN)
    ∧ (coreState (wdog stWAIT) 0 0 = stWAIT ∧ rf (wdog stWAIT) (slotOf c0) CORE_PWR_MODE = 0)
    ∧ rf base (slotOf c0) CORE_WDOG_LIMIT = 0 := by decide +kernel

theorem witness_TriggersStartResetAndClear :
    coreState State.reset 0 0 = stIDLE ∧ coreState (setCoreState base 0 0 stDONE) 0 0 = stDONE ∧ coreState base 0 0 = stRUN
    ∧ coreOutstanding base 0 0 = [] ∧ coreOutstanding (withCore fun k => { k with loadTag := some 4 }) 0 0 ≠ []
    ∧ (∀ i ∈ [Instr.coreClrcnt c0, .meClrcnt c0 3, .veClrcnt c0, .sfeClrcnt c0, .scClrcnt ⟨0, 15⟩, .dmaClrcnt ⟨0, 0⟩,
        .chClrcnt ⟨0, 0, 31⟩, .gcClrcnt ⟨0, 0⟩, .redClrcnt 0, .styClrcnt 0, .pluClrcnt 0, .lkClrcnt 0],
        counterSpans i ≠ [] ∧ dieOf i = some 0 ∧ ∀ p ∈ counterSpans i, unitGated State.reset p.1 = false)
    ∧ hasGc State.reset = true ∧ hasPlu State.reset 0 = true := by decide +kernel

theorem witness_StashPointersMoveAndEventsCount :
    (let s := wf base (clBlk 0 0) SC_TAIL_TAIL (2 ^ 23)
     (rf s (clBlk 0 0) SC_TAIL_TAIL + 2 ^ 24 - 0) % 2 ^ 24 ≤ 2 ^ 23)
    ∧ 2 ^ 23 < ((0x800001 : Word).toNat % 2 ^ 24 + 2 ^ 24 - rf base (clBlk 0 0) SC_HEAD_HEAD) % 2 ^ 24
    ∧ fget 1 SC_EVENT_CODE = 1 ∧ fget 2 SC_EVENT_CODE = 2 := by decide +kernel

theorem test_wait_then_timeout : after (.coreWtimeExpiry c0) (waits (fn 1))
    (fun t => coreState t 0 0 == stRUN && pcOf t 0 0 == 16) = true := by decide +kernel

theorem test_coreRun_in_run_is_ignored : after (.coreRun c0) base (fun t => t.cores == base.cores && t.regs == base.regs) = true := by
  decide +kernel

theorem test_stash_over : after (.scTailWrite ⟨0, 0⟩ 0x800001) base
    (fun t => rf t (clBlk 0 0) SC_STATUS_OVER == 1 && rf t (clBlk 0 0) SC_TAIL_TAIL == 0) = true := by decide +kernel

/-! The step queues: a header at slot0 + 0x40, an entry at slot0 + 0x100, slots from slot0 + 0x400, the peer's count at
slot0 + 0x200. -/

/-- The bytes of a header of core 0 (R282). -/
def header (kind slots put get pc slotBytes : Nat) : List Byte :=
  leBytes 1 kind ++ [1] ++ leBytes 2 slots ++ leBytes 4 0 ++ leBytes 4 put ++ leBytes 4 get ++ leBytes 4 pc ++ leBytes 4 0
    ++ leBytes 8 (slot0 + 0x400) ++ leBytes 8 (if slotBytes = 0 then 0 else slot0 + 0x200) ++ leBytes 4 slotBytes
    ++ List.replicate 20 0

def queueState (hdr : List Byte) : State :=
  withMem (withMem (withX [(1, BitVec.ofNat 64 (slot0 + 0x40)), (2, BitVec.ofNat 64 (slot0 + 0x100))]) (slot0 + 0x40) hdr)
    (slot0 + 0x100) [7]

/-- Operands with header x1, entry x2, result x3. -/
def qo (func : Nat) : SeqOp := sq 3 1 2 func 0

theorem header_at {hdr : List Byte} {kinds : List Nat} {o : SeqOp} (h : (qEncOk o
    && (coreTarget (queueState hdr) c0 false (qAddr (queueState hdr) 0 0 o) 64 == .here 0 (slot0 + 0x40))
    && (qAddr (queueState hdr) 0 0 o).toNat % 64 == 0
    && memSound (queueState hdr) 0 (slot0 + 0x40) 64
    && qhdrOk kinds 0 (peek (queueState hdr) 0 (slot0 + 0x40) 64)) = true) :
    HeaderAt (queueState hdr) c0 o kinds (slot0 + 0x40) (qhdrOf (peek (queueState hdr) 0 (slot0 + 0x40) 64)) := by
  simp only [Bool.and_eq_true, beq_iff_eq] at h
  obtain ⟨⟨⟨⟨a, b⟩, c⟩, d⟩, f⟩ := h
  exact ⟨a, b, c, not_register (by decide +kernel), d, f, rfl⟩

theorem witness_QueueInstructionsPostTakeAndAdvance :
    (Issues (queueState (header 1 4 3 0 0 0)) c0 h0
      ∧ HeaderAt (queueState (header 1 4 3 0 0 0)) c0 (qo 0) [1, 2] (slot0 + 0x40)
          (qhdrOf (peek (queueState (header 1 4 3 0 0 0)) 0 (slot0 + 0x40) 64))
      ∧ outsideSlot (queueState (header 1 4 3 0 0 0)) 0 0 (slot0 + 0x100) 32 = none ∧ (slot0 + 0x100) % 32 = 0
      ∧ memSound (queueState (header 1 4 3 0 0 0)) 0 (slot0 + 0x100) 32 = true
      ∧ (3 - 0 : BitVec 32).toNat < 4 ∧ ¬ (4 - 0 : BitVec 32).toNat < 4
      ∧ WriteLands (queueState (header 1 4 3 0 0 0)) c0 (BitVec.ofNat 64 (slot0 + 0x460)) 32 0 (slot0 + 0x460))
    ∧ (HeaderAt (queueState (header 4 2 0 1 2 64)) c0 (qo 0) [1, 2, 4] (slot0 + 0x40)
          (qhdrOf (peek (queueState (header 4 2 0 1 2 64)) 0 (slot0 + 0x40) 64))
      ∧ HeaderAt (queueState (header 3 2 1 0 0 64)) c0 (qo 0) [3] (slot0 + 0x40)
          (qhdrOf (peek (queueState (header 3 2 1 0 0 64)) 0 (slot0 + 0x40) 64)))
    ∧ (HeaderAt (queueState (header 2 4 3 0 0 0)) c0 (qo 1) [1, 2, 4] (slot0 + 0x40)
          (qhdrOf (peek (queueState (header 2 4 3 0 0 0)) 0 (slot0 + 0x40) 64))
      ∧ HeaderAt (queueState (header 4 2 0 1 2 64)) c0 (qo 1) [1, 2, 4] (slot0 + 0x40)
          (qhdrOf (peek (queueState (header 4 2 0 1 2 64)) 0 (slot0 + 0x40) 64))
      ∧ WriteLands (queueState (header 4 2 0 1 2 64)) c0 (BitVec.ofNat 64 (slot0 + 0x200)) 4 0 (slot0 + 0x200)
      ∧ HeaderAt (queueState (header 3 2 1 0 0 64)) c0 (qo 1) [3] (slot0 + 0x40)
          (qhdrOf (peek (queueState (header 3 2 1 0 0 64)) 0 (slot0 + 0x40) 64))
      ∧ visible (coreAt (queueState (header 3 2 1 0 0 64)) c0) = true)
    ∧ ((qo 2).func.toNat % 4 = 2 ∧ qEncOk (qo 2) = true) := by
  refine ⟨⟨issues_of (by decide +kernel), header_at (by decide +kernel), by decide +kernel, by decide, by decide +kernel, by decide, by decide,
    ⟨by decide +kernel, not_register (by decide +kernel), by decide +kernel, by decide +kernel, .inl rfl⟩⟩,
    ⟨header_at (by decide +kernel), header_at (by decide +kernel)⟩,
    ⟨header_at (by decide +kernel), header_at (by decide +kernel),
      ⟨by decide +kernel, not_register (by decide +kernel), by decide +kernel, by decide +kernel, .inl rfl⟩, header_at (by decide +kernel), by decide +kernel⟩,
    by decide, by decide +kernel⟩

theorem test_qpost : after (.qpost c0 h0 (qo 0)) (queueState (header 1 4 3 0 0 0))
    (fun t => xget (coreAt t c0) 3 == 1 && peek t 0 (slot0 + 0x460) 1 == [7] && peek t 0 (slot0 + 0x48) 1 == [4]) = true := by
  decide +kernel

theorem test_qpost_full : after (.qpost c0 h0 (qo 0)) (queueState (header 1 4 4 0 0 0))
    (fun t => xget (coreAt t c0) 3 == 0 && peek t 0 (slot0 + 0x48) 1 == [4]) = true := by decide +kernel

/-- A stage queue of two slots, both filled: TAKE finds none; with one released it names the second (R284). -/
theorem test_take : after (.take c0 h0 (qo 0)) (queueState (header 3 2 2 0 0 64)) (fun t => xget (coreAt t c0) 3 == 0) = true
    ∧ after (.take c0 h0 (qo 0)) (queueState (header 3 2 3 0 2 64))
        (fun t => xget (coreAt t c0) 3 == BitVec.ofNat 64 (slot0 + 0x440)) = true := by decide +kernel

theorem test_send_writes_the_peer : after (.send c0 h0 (qo 1)) (queueState (header 3 2 1 0 0 64))
    (fun t => peek t 0 (slot0 + 0x200) 1 == [2] && peek t 0 (slot0 + 0x48) 1 == [2]) = true := by decide +kernel

/-! Commands to units: the 64 bytes at slot0 + 0x40. -/

theorem command_at {s : State} {o : SeqOp} {u : Option Nat} (h : ((checkTarget s 0 0 u false (dataAddr s c0 o) 64
    == .here 0 (slot0 + 0x40)) && (dataAddr s c0 o).toNat % 64 == 0 && !routeDown s 0 0
    && memSound s 0 (slot0 + 0x40) 64) = true) : CommandAt s c0 o u 0 (slot0 + 0x40) := by
  simp only [Bool.and_eq_true, beq_iff_eq, Bool.not_eq_true'] at h
  obtain ⟨⟨⟨a, b⟩, c⟩, d⟩ := h
  exact ⟨a, b, not_register (by decide +kernel), c, d, .inl rfl⟩

def ch0 : ChId := ⟨0, 0, 0⟩
/-- Channel 0 of cluster 0 in a state. -/
def chan (st : Nat) (f : ChanSt → ChanSt) : State := modChan (wf base (chBlk 0 0 0) CH_STATUS_STATE st) 0 0 0 f
/-- A queued descriptor with its first words (R205). -/
def qd (ws : List Nat) : QDesc := ⟨ws.map (BitVec.ofNat 64), 0x40, none, none, .clean⟩
/-- COPY of one row of 64 bytes from slot0 to slot0 + 0x100. -/
def copyDesc : QDesc := qd [0x401, slot0, slot0 + 0x100, 0x100000040, 0, 0, 0, 0]
/-- FILL of one row of 16 bytes at slot0 + 0x100. -/
def fillDesc : QDesc := qd [2, 0, slot0 + 0x100, 0x100000010, 0, 0x0807060504030201, 0, 0]
/-- A good compressor command: raw mode, one element. -/
def gcWords : List Byte :=
  [0, 0, 0, 0, 0, 0, 0, 0] ++ leBytes 8 1 ++ leBytes 8 slot0 ++ leBytes 8 slot0 ++ leBytes 8 0 ++ leBytes 8 (slot0 + 0x100) ++ leBytes 8 0
    ++ leBytes 8 64
/-- The part without compressor and lookup unit. -/
def bare (s : State) : State :=
  { s with secure := { s.secure with variant := { s.secure.variant with gcmp := false, plu := false } } }

theorem witness_CommandsAreQueuedAtTheirUnits :
    (Issues withAddr c0 h0 ∧ CommandAt withAddr c0 (sq 0 1 0 0 0) none 0 (slot0 + 0x40) ∧ chanDepth (getChan withAddr 0 0 0) < 4)
    ∧ (4 ≤ chanDepth (getChan (chan 1 fun x => { x with queue := List.replicate 4 copyDesc }) 0 0 0))
    ∧ (checkTarget base 0 0 none false (BitVec.ofNat 64 slot0) 64 = .here 0 slot0 ∧ routeDown base 0 0 = false
      ∧ memSound base 0 slot0 64 = true ∧ coresClocked base 0 = true)
    ∧ (Issues (withMem withAddr (slot0 + 0x40) gcWords) c0 h0
      ∧ CommandAt (withMem withAddr (slot0 + 0x40) gcWords) c0 (sq 0 1 0 0 0) (some 0) 0 (slot0 + 0x40)
      ∧ gcDescOk (leWords (peek (withMem withAddr (slot0 + 0x40) gcWords) 0 (slot0 + 0x40) 64)) = true
      ∧ hasGc withAddr = true ∧ (getGc withAddr 0 0).length < 8)
    ∧ (withAddr.secure.variant.plu = true ∧ (getPlu withAddr 0).queue.length < 32 ∧ routeDown withAddr 0 0 = false
      ∧ EnginesIdle (coreAt withAddr c0) ∧ CommandAt withAddr c0 (sq 0 1 0 0 0) (some 0) 0 (slot0 + 0x40))
    ∧ (Issues (bare base) c0 h0 ∧ hasGc (bare base) = false ∧ (bare base).secure.variant.plu = false)
    ∧ 8 ≤ (getGc { base with gcs := [(0, List.replicate 8 ⟨[], 0, 0⟩)] } 0 0).length
    ∧ 32 ≤ (getPlu { base with plus := [(0, ⟨List.replicate 32 ⟨[], 0, 0, 0, []⟩, none, []⟩)] } 0).queue.length := by
  refine ⟨⟨issues_of (by decide +kernel), command_at (by decide +kernel), by decide +kernel⟩, by decide +kernel,
    by decide +kernel, ⟨issues_of (by decide +kernel), command_at (by decide +kernel), by decide +kernel⟩,
    ⟨by decide +kernel, by decide +kernel, by decide +kernel, by unfold EnginesIdle; decide +kernel,
      command_at (by decide +kernel)⟩,
    ⟨issues_of (by decide +kernel), by decide +kernel⟩, by decide +kernel, by decide +kernel⟩

theorem test_dq_starts_the_channel : after (.dq c0 h0 (sq 0 1 0 0 0)) withAddr
    (fun t => chanState t 0 0 0 == 1 && chanDepth (getChan t 0 0 0) == 1) = true := by decide +kernel

theorem test_cq_absent_faults : after (.cq c0 h0 (sq 0 1 0 0 0)) (bare withAddr)
    (fun t => coreState t 0 0 == stFAULTED && regWord t (coreBlk 0 0 + 0x20) == 2) = true := by decide +kernel

/-! The DMA engine. -/

/-- A channel that issues a descriptor. -/
def issuing (q : QDesc) : State := chan 1 fun x => { x with head := some ⟨q, false, 5, 0, 0, [], 0⟩, finishing := [⟨5, false, false, q⟩] }
/-- A burst of 64 bytes from slot0 to slot0 + 0x100. -/
def burst (w : Bool) : Burst := ⟨5, 0, false, BitVec.ofNat 64 slot0, BitVec.ofNat 64 (slot0 + 0x100), 64, 0, 0, List.replicate 64 9, none, w⟩
/-- A channel with that burst outstanding and its descriptor wholly issued. -/
def bursting (w : Bool) (rest : List Burst) : State :=
  chan 1 fun x => { x with bursts := burst w :: rest, finishing := [⟨5, true, false, copyDesc⟩] }

theorem witness_ChannelsPauseAbortAndDrain :
    chanMode (chan 0 id) ch0 = 0 ∧ chanMode (chan 3 id) ch0 = 3 ∧ chanMode (chan 5 id) ch0 = 5 ∧ chanMode (chan 6 id) ch0 = 6
    ∧ (chanAt (bursting true []) ch0).bursts ≠ [] ∧ (chanAt (chan 5 id) ch0).bursts = [] ∧ (chanAt (chan 5 id) ch0).fetch = none
    ∧ (chanAt (chan 5 id) ch0).aborting = false ∧ (chanAt (chan 1 fun x => { x with aborting := true }) ch0).aborting = true
    ∧ (chanAt (issuing copyDesc) ch0).head.isSome = true ∧ coresClocked base 0 = true := by decide +kernel

theorem witness_DescriptorsAreCheckedAndBurstsGranted :
    (let s := chan 1 fun x => { x with queue := [{ copyDesc with failed := some 15 }] }
     chanMode s ch0 = 1 ∧ (chanAt s ch0).head = none ∧ NoneToComplete (chanAt s ch0) ∧ (15 : BitVec 4).toNat < 16)
    ∧ (dmaDescOk (qd [0]).words = false)
    ∧ (let q := (qd [0x11, slot0, slot0 + 0x100, 0x100000040, 0, 0, slot0 + 0x13F, 0]).words
       dmaDescOk q = true ∧ dmaRefused q = true ∧ dWord q 30 30 = 0)
    ∧ (dmaDescOk copyDesc.words = true ∧ dmaRefused copyDesc.words = false ∧ dOp copyDesc.words = 1)
    ∧ grantOf base 0 0 = none
    ∧ (grantOf (issuing copyDesc) 0 0 = some (0, 0) ∧ NoneToComplete (chanAt (issuing copyDesc) ch0)
      ∧ (requestOf (issuing copyDesc) 0 0 0).map (·.2) = some (.row (BitVec.ofNat 64 slot0) (BitVec.ofNat 64 (slot0 + 0x100)) 64)
      ∧ firstRefused (issuing copyDesc) 0 0 false (reqs (BitVec.ofNat 64 slot0) 64) = none
      ∧ isAway (issuing copyDesc) 0 0 false (BitVec.ofNat 64 slot0) 64 = false
      ∧ (reqs (BitVec.ofNat 64 slot0) 64).all (fun p => memSound (issuing copyDesc) 0 (addrLocal p.1) p.2) = true)
    ∧ (let q := { copyDesc with tag := some 9 }
       q.tag = some 9 ∧ answersOf (chan 1 fun x => { x with queue := [q] }) 0 (unitDma 0 0) 9 1 = none)
    ∧ (grantOf (issuing fillDesc) 0 0 = some (0, 0) ∧ dOp fillDesc.words = 2
      ∧ ((BitVec.ofNat 64 (slot0 + 0x100), 16) :: reqs (BitVec.ofNat 64 (slot0 + 0x100)) 16).all
          (fun p => (deadIn (issuing fillDesc) 0 (addrLocal p.1) p.2).isNone) = true
      ∧ (requestOf (issuing fillDesc) 0 0 0).map (·.2) = some (.row 0 (BitVec.ofNat 64 (slot0 + 0x100)) 16)) := by
  unfold NoneToComplete; decide +kernel

theorem first_burst (b : Burst) (rest : List Burst) : FirstBurst { ChanSt.reset with bursts := b :: rest } b.writing 0 b :=
  ⟨rfl, rfl, fun j h => absurd h (Nat.not_lt_zero j)⟩

theorem witness_BurstsCompleteChainAgeAndTimeOut :
    ((burst false).bad = none ∧ isAway (bursting false []) 0 0 true (burst false).dst 64 = false
      ∧ addrMod (burst false).src = lmod (bursting false []) 0 ∧ noLmod (bursting false []) 0 = false
      ∧ firstRefused (bursting false []) 0 0 true (reqs (burst false).dst 64) = none
      ∧ (((burst false).dst, 64) :: reqs (burst false).dst 64).all
          (fun p => (deadIn (bursting false []) 0 (addrLocal p.1) p.2).isNone) = true
      ∧ (burst false).got.length = 64 ∧ unserved (bursting false []) 0 0 = false ∧ addrDie (burst false).dst = 0)
    ∧ ((chanAt (bursting true [burst true]) ch0).bursts = [burst true, burst true]
      ∧ NoneToComplete { chanAt (bursting true [burst true]) ch0 with bursts := [burst true] })
    ∧ ((chanAt (bursting true []) ch0).bursts = [burst true] ∧ dKind copyDesc.words = 0 ∧ dWord copyDesc.words 10 10 = 1
      ∧ dWord copyDesc.words 15 12 = 0 ∧ dWord copyDesc.words 21 16 = 0 ∧ (getCore (bursting true []) 0 0).upsets = [])
    ∧ (let f : Burst := ⟨5, 0, false, 0x40, 0, 64, 0, 0, (copyDesc.words.map wordBytes).flatten, none, false⟩
       let s := chan 2 fun x => { x with fetch := some f }
       (chanAt s ch0).fetch = some f ∧ chanMode s ch0 = 2 ∧ dmaDescOk (leWords f.got) = true ∧ dOp (leWords f.got) = 1)
    ∧ (rf base (dmaBlk 0 0) DMA_AGE_CYCLES ≠ 0 ∧ (requestOf (issuing copyDesc) 0 0 0).isSome = true)
    ∧ (rf base (dmaBlk 0 0) DMA_TIMEOUT_US ≠ 0
      ∧ ((chanAt (bursting false []) ch0).bursts ++ (chanAt (bursting false []) ch0).fetch.toList).findSome?
          (unanswered (bursting false []) 0 0 0) = some (burst false, (burst false).src))
    ∧ rf (wf base (dmaBlk 0 0) DMA_TIMEOUT_US 0) (dmaBlk 0 0) DMA_TIMEOUT_US = 0 := by
  unfold NoneToComplete; decide +kernel

theorem test_burst_write : after (.burstReadReturn ch0 .clean) (bursting false [])
    (fun t => peek t 0 (slot0 + 0x13F) 2 == [9, 0]) = true := by decide +kernel

theorem test_last_ack_signals : after (.writeAck ch0) (bursting true []) (fun t => semVal t 0 0 0 == 1 && chanMode t ch0 == 0) = true := by
  decide +kernel

theorem test_fill_grant : after (.burstGrant ⟨0, 0⟩) (issuing fillDesc)
    (fun t => peek t 0 (slot0 + 0x100) 9 == [1, 2, 3, 4, 5, 6, 7, 8, 1]) = true := by decide +kernel

theorem test_timeout : after (.dmaTimeout ch0) (bursting false [])
    (fun t => chanMode t ch0 == 5 && rf t (chanBase ch0) CH_STATUS_ERR == 6) = true := by decide +kernel

/-! The engines: BF16 views a0 (1 × 1, 2.0), a1 (1 × 1, 3.0), a2 (the output), and four views of optimiser state a4-a7. -/

def viewAt (off rows cols fmt : Nat) : Desc :=
  { Desc.zero with
    base := BitVec.ofNat 64 (slot0 + off), rows := BitVec.ofNat 32 rows, cols := BitVec.ofNat 32 cols, rstride := 64, irow := BitVec.ofNat 32 cols
    fmt := BitVec.ofNat 4 fmt, bsz := 0 }

/-- Views and their contents; tile t1 holds 1.0 and -2.0. -/
def engState : State :=
  let s := withCore fun k => { k with
    a := [(0, viewAt 0x1000 1 1 0), (1, viewAt 0x1040 1 1 0), (2, viewAt 0x1080 1 1 0), (3, viewAt 0x4000 1 1056 6),
      (4, viewAt 0x1100 1 1 0), (5, viewAt 0x1140 1 1 0), (6, viewAt 0x1180 1 1 0), (7, viewAt 0x11C0 1 1 5)]
    x := [(1, BitVec.ofNat 64 (slot0 + 0x2000)), (4, 0x3F80)]
    tiles := [(1, [0x3F80, 0xC000])] }
  withMem (withMem (withMem (withMem s (slot0 + 0x1000) [0, 0x40]) (slot0 + 0x1040) [0x40, 0x40]) (slot0 + 0x4000)
    [0, 0, 0x80, 0x3F]) (slot0 + 0x400C) [1]

def mm (dest keep : Bool) : MmOp := ⟨1, 0, 1, 2, 3, false, false, true, dest, keep, 0, 0⟩
def vx (lop : Nat) (s0 s1 : Src) (dnum : Nat) (n : Nat) : VxOp :=
  ⟨BitVec.ofNat 6 lop, s0, s1, ⟨0, 0, 0, 0⟩, false, BitVec.ofNat 5 dnum, 0, 0, 0, BitVec.ofNat 14 (n - 1), 0⟩
def tileSrc (n : Nat) : Src := ⟨1, BitVec.ofNat 5 n, 0, 0⟩
def scalarSrc (n : Nat) : Src := ⟨4, BitVec.ofNat 5 n, 3, 0⟩
def noSrc : Src := ⟨0, 0, 0, 0⟩

theorem mem_of_tget {α : Type} {t : Tab (List α)} {q : Nat} {x : α} (h : x ∈ tget [] t q) : ∃ p ∈ t, x ∈ p.2 := by
  induction t with
  | nil => simp [tget, tlookup] at h
  | cons p r ih =>
    obtain ⟨k, v⟩ := p
    rcases Nat.lt_trichotomy q k with e | e | e
    · simp [tget, tlookup, e, Nat.ne_of_lt e] at h
    · exact ⟨_, List.mem_cons_self, by simpa [tget, tlookup, e] using h⟩
    · obtain ⟨y, m, n⟩ := ih (by simpa [tget, tlookup, Nat.ne_of_gt e, Nat.lt_asymm e] using h)
      exact ⟨y, List.mem_cons_of_mem _ m, n⟩

theorem ready_of {s : State} {c : CoreId} {h : Hdr} {k : Nat} (w : (canIssue s c h && ((List.range 6).all fun j =>
    (engQueue (coreAt s c) j).all (·.done)) && (coreAt s c).loops.isEmpty && (tget none (coreAt s c).held k).isNone
    && s.poison.isEmpty && s.upsets.isEmpty && (coreAt s c).conv.all (fun p => p.2.all fun x => x.upset == .clean)) = true) : EngineReady s c h k := by
  simp only [Bool.and_eq_true, List.isEmpty_iff, Option.isNone_iff_eq_none, List.all_eq_true, List.mem_range, beq_iff_eq] at w
  obtain ⟨⟨⟨⟨⟨⟨a, b⟩, d⟩, e⟩, f⟩, g⟩, i⟩ := w
  refine ⟨issues_of a, b, ?_, e, f, g, fun q x m => ?_⟩
  rotate_left
  · obtain ⟨p, l, n⟩ := mem_of_tget m
    exact i p l x n
  unfold NoLoopEnds
  simp [d]

def scoreOp : VxOp := { vx 0 (tileSrc 1) noSrc 3 32 with s2 := scalarSrc 4, imm16 := 0x80 }
def momOp (n : Nat) : VxOp := { vx 0 (tileSrc 1) noSrc 0 n with imm16 := 0x80 }
def ctlOp (f : Nat) : VxOp := { vx f noSrc noSrc 0 1 with imm16 := 0x80 }
def permOp : VxOp := { vx 0 (⟨1, 1, 0, 6⟩) (⟨1, 2, 0, 6⟩) 3 2 with dfmt := 6 }
def stldOp : VxOp := vx 0x13 ⟨2, 3, 0, 6⟩ noSrc 0 1
def voptOp : VoptOp := ⟨4, 5, 6, 7, 1, 0⟩

theorem engine_ready (k : Nat) (h : (tget none (coreAt engState c0).held k).isNone = true) : EngineReady engState c0 h0 k :=
  ready_of (by rw [h]; decide +kernel)

theorem witness_EngineInstructionsExecute :
    (∀ p ∈ [(Instr.mma c0 h0 (mm false true), 1), (.mmao c0 h0 (mm true false), 1), (.mout c0 h0 (mm false false), 1),
        (.minit c0 h0 (mm false false), 1), (.vop c0 h0 (vx 4 (tileSrc 1) (scalarSrc 4) 2 2), 4),
        (.vlp c0 h0 (vx 0 (tileSrc 1) noSrc 2 2), 4), (.vlpld c0 h0 ⟨15, 1, 0⟩, 4), (.vred c0 h0 (vx 0 (tileSrc 1) noSrc 2 2), 4),
        (.vperm c0 h0 permOp, 4), (.vopt c0 h0 voptOp, 4), (.sfn c0 h0 (vx 0 (tileSrc 1) noSrc 2 2), 5),
        (.sfd c0 h0 (vx 0 (tileSrc 1) (tileSrc 1) 2 2), 5), (.stld c0 h0 stldOp, 5), (.rsmax c0 h0 scoreOp, 5),
        (.rsexp c0 h0 scoreOp, 5), (.rsmom c0 h0 (momOp 32), 5), (.rsctl c0 h0 (ctlOp 0), 5)],
      coreOf p.1 = some c0 ∧ hdrOf p.1 = h0 ∧ engineOf p.1 = some p.2 ∧ engineCheck engState c0 p.1 = none
        ∧ EngineReady engState c0 h0 p.2)
    ∧ engineCheck engState c0 (.rsmax c0 h0 (momOp 32)) = some (1, 0)
    ∧ engineCheck engState c0 (.mma c0 h0 { mm false true with da := 9 }) = some (3, 0) := by
  refine ⟨?_, by decide +kernel, by decide +kernel⟩
  simp only [List.forall_mem_cons, List.not_mem_nil, false_imp_iff, implies_true, and_true]
  refine ⟨?_, ?_, ?_, ?_, ?_, ?_, ?_, ?_, ?_, ?_, ?_, ?_, ?_, ?_, ?_, ?_, ?_⟩ <;>
    exact ⟨by decide +kernel, by decide +kernel, by decide +kernel, by decide +kernel, engine_ready _ (by decide +kernel)⟩

/-- What an engine needs to execute at once is there. -/
theorem witness_engineCan : engineCan engState c0 (.mmao c0 h0 (mm true false))
    ∧ engineCan engState c0 (.vop c0 h0 (vx 4 (tileSrc 1) (scalarSrc 4) 2 2))
    ∧ engineCan engState c0 (.vlp c0 h0 (vx 0 (tileSrc 1) noSrc 2 2)) ∧ engineCan engState c0 (.vred c0 h0 (vx 0 (tileSrc 1) noSrc 2 2))
    ∧ engineCan engState c0 (.vperm c0 h0 permOp) ∧ engineCan engState c0 (.vlpld c0 h0 ⟨15, 1, 0⟩)
    ∧ engineCan engState c0 (.vopt c0 h0 voptOp) ∧ engineCan engState c0 (.rsmax c0 h0 scoreOp) := by
  refine ⟨fun _ => by decide +kernel, ?_, ?_, ?_, .inl ?_, .inr ?_, ?_, ?_⟩ <;> (try unfold engineCan) <;> (try unfold tilesThere) <;> decide +kernel

/-- `engState` without the trap on a bad table image, and with no image. -/
def noTrap : State := withMem (wf engState (sfeBlk 0 0) SFE_CTRL_TBL_TRAP 0) (slot0 + 0x400C) [0]

theorem witness_functions : engineCan engState c0 (.sfn c0 h0 (vx 0 (tileSrc 1) noSrc 2 2)) ∧ engineCan noTrap c0 (.stld c0 h0 stldOp)
    ∧ userSlot stldOp.lop.toNat = some 3 := by
  refine ⟨⟨fun q hq => absurd hq (by revert q; decide), by unfold tilesThere; decide +kernel⟩, ?_, by decide⟩
  intro q hq
  have : q = 3 := by simpa [stldOp, vx, userSlot] using hq.symm
  subst this
  exact ⟨by decide +kernel, .inr (by decide +kernel)⟩

/-- A conveyor of ME1 with 15 and with 16 tiles. -/
def conveyed (n : Nat) : State := modCore engState 0 0 fun k => { k with conv := [(1, List.replicate n Tile.empty)] }

theorem witness_MatrixInstructionsWriteTheirResult : EngineReady (conveyed 15) c0 h0 1 ∧ EngineReady (conveyed 16) c0 h0 1
    ∧ (tget [] (coreAt (conveyed 15) c0).conv 1).length < 16 ∧ 16 ≤ (tget [] (coreAt (conveyed 16) c0).conv 1).length
    ∧ engineCheck (conveyed 16) c0 (.mout c0 h0 (mm true false)) = none ∧ (mm true false).me.toNat = 1 :=
  ⟨ready_of (by decide +kernel), ready_of (by decide +kernel), by decide +kernel, by decide +kernel, by decide +kernel, by decide⟩

theorem witness_VectorInstructionsWriteTheirResult : EngineReady engState c0 h0 4
    ∧ vxEc (vx 4 (tileSrc 1) (scalarSrc 4) 2 1024) = 1024
    ∧ engineCheck engState c0 (.vop c0 h0 (vx 4 (tileSrc 1) (scalarSrc 4) 2 1024)) = none :=
  ⟨ready_of (by decide +kernel), by decide, by decide +kernel⟩

theorem witness_SpecialFunctionsWriteTheirResult : EngineReady engState c0 h0 5 ∧ rsFn (ctlOp 1) = 1 ∧ rsNt scoreOp = 1
    ∧ EngineReady noTrap c0 h0 5 ∧ engineCheck noTrap c0 (.stld c0 h0 stldOp) = none :=
  ⟨ready_of (by decide +kernel), by decide, by decide, ready_of (by decide +kernel), by decide +kernel⟩

/-- 2 × 3 = 6 in BF16 (R107, R110). -/
theorem test_mmao : after (.mmao c0 h0 (mm false false)) engState (fun t => peek t 0 (slot0 + 0x1080) 2 == [0xC0, 0x40]) = true := by
  decide +kernel

/-- 1 × 1 and -2 × 1 (R137). -/
theorem test_vop_mul : after (.vop c0 h0 (vx 4 (tileSrc 1) (scalarSrc 4) 2 2)) engState
    (fun t => tileCode (coreAt t c0) 2 0 == 0x3F80 && tileCode (coreAt t c0) 2 1 == 0xC000) = true := by decide +kernel

/-- 1 + (-2) (R143). -/
theorem test_vred_sum : after (.vred c0 h0 (vx 0 (tileSrc 1) noSrc 2 2)) engState
    (fun t => tileCode (coreAt t c0) 2 0 == 0xBF80) = true := by decide +kernel

/-- An empty lane program writes +0 (R138). -/
theorem test_vlp_empty : after (.vlp c0 h0 (vx 0 (tileSrc 1) noSrc 1 2)) engState
    (fun t => tileCode (coreAt t c0) 1 0 == 0 && tileCode (coreAt t c0) 1 1 == 0) = true := by decide +kernel

/-- The initial row statistics (R171): M = -∞ and a count of weight one. -/
theorem test_rsctl_init : after (.rsctl c0 h0 (ctlOp 0)) engState
    (fun t => tileCode (coreAt t c0) 2 0 == 0xFF80 && tileCode (coreAt t c0) 2 3 == 0x3F80) = true := by decide +kernel

/-- An image whose field at byte 12 is not 1 is not taken (R160). -/
theorem test_stld_bad : after (.stld c0 h0 stldOp) noTrap
    (fun t => rf t (sfeBlk 0 0) SFE_STATUS_TBL_BAD == 1 && !tblPending t 0 0 3) = true := by decide +kernel

/-! Completions, conveyors, tables, compressor, prefix lookup. -/

/-- An executed VE instruction with SEN, and an ME that keeps a tile. -/
def executed : State := modCore engState 0 0 fun k =>
  { k with eng := [(4, [⟨.vlpld c0 hs ⟨0, 0, 0⟩, 0, Desc.zero, Desc.zero, Desc.zero, Desc.zero, 0, 0, 0, true, true, 0, 0, [], []⟩])] }
def keeping : State := modCore engState 0 0 fun k =>
  { k with held := [(1, some Tile.empty)], eng := [(1, [⟨.mout c0 hs (mm true false), 0, Desc.zero, Desc.zero, Desc.zero, Desc.zero, 0, 0, 0, false, true, 0, 0, [], []⟩])] }

/-- The same in WAIT with MODE 1 for the semaphore that the completion signals. -/
def waking : State :=
  wf (setCoreState (modCore executed 0 0 fun k => { k with hold := some ⟨.wait, .wait c0 h0 (sq 0 0 0 0 0x80)⟩ }) 0 0 stWAIT)
    (coreBlk 0 0) CORE_PWR_MODE 1
/-- A core whose compressor command has performed all its writes. -/
def packedUp : State := withCore fun k => { k with gcOwed := [⟨false, 0, 0, .writing 0 0⟩] }

theorem witness_CompletionsSignalAndConveyorSlotsTurn :
    (∃ e, engQueue (coreAt executed c0) 4 = [] ++ e :: [] ∧ e.done = true ∧ (hdrOf e.ins).sen = true ∧ (hdrOf e.ins).ssem.toNat = 7)
    ∧ (coresClocked executed 0 = true ∧ (coreAt executed c0).upsets = [] ∧ (coreAt executed c0).hold = none)
    ∧ ((coreAt waking c0).hold = some ⟨.wait, .wait c0 h0 (sq 0 0 0 0 0x80)⟩ ∧ coreState waking 0 0 = stWAIT
      ∧ rf waking (slotOf c0) CORE_PWR_MODE = 1 ∧ drained { coreAt waking c0 with eng := [(4, [])] } = true
      ∧ (sq 0 0 0 0 0x80).imm.getLsbD 7 = true ∧ pcOf waking 0 0 < 0x180000)
    ∧ (∃ o, (coreAt owing c0).stores = [] ++ o :: [] ∧ o.done = true ∧ unserved owing 0 (addrDie o.addr) = false)
    ∧ (∃ o, (coreAt packedUp c0).gcOwed = [] ++ o :: [] ∧ o.stage = .writing 0 0)
    ∧ tget none (coreAt engState c0).held 1 = none
    ∧ (∃ e, tget none (coreAt keeping c0).held 1 = some Tile.empty ∧ engQueue (coreAt keeping c0) 1 = [] ++ e :: [] ∧ e.done = false)
    ∧ EnginesIdle (coreAt engState c0)
    ∧ tblPending (wf engState (sfeBlk 0 0) ⟨0x18, 30, 1⟩ 1) 0 0 3 = true := by
  refine ⟨⟨_, rfl, by decide +kernel⟩, by decide +kernel, by decide +kernel, ⟨_, rfl, by decide +kernel⟩, ⟨_, rfl, rfl⟩,
    by decide +kernel, ⟨_, by decide +kernel, rfl, by decide +kernel⟩,
    by unfold EnginesIdle; decide +kernel, by decide +kernel⟩

theorem test_completion_signals : after (.instructionComplete c0 .ve) executed (fun t => semVal t 0 0 7 == 1) = true := by
  decide +kernel

theorem test_conveyor_slot : after (.conveyorSlotFree c0 1) keeping
    (fun t => (tget [] (coreAt t c0).conv 1).length == 1) = true := by decide +kernel

/-! Units with requests waiting, the exchange, the Steelyard, the close of a step. -/

theorem unitSees_of {f : Nat → Nat → Bool} {s : State} {d c : Nat} {a : Word} {len : Nat} {bs : List Byte}
    (h : (match checkTargetF f s d c none false a len with
      | .here t l => decide (0 < len) && !routeDown s d t && decide (d = t) && memSound s t l len && peek s t l len == bs
      | _ => false) = true) : UnitSees f s d c a len bs := by
  split at h
  · rename_i t l e
    simp only [Bool.and_eq_true, decide_eq_true_eq, Bool.not_eq_true', beq_iff_eq] at h
    obtain ⟨⟨⟨⟨p, q⟩, r⟩, u⟩, v⟩ := h
    exact .inr ⟨p, t, l, e, q, .inl r, u, v.symm⟩
  · cases h

theorem unitLands_of {f : Nat → Nat → Bool} {s : State} {d c : Nat} {a : Word} {len : Nat}
    (h : (match checkTargetF f s d c none true a len with
      | .here t l => !routeDown s d t && (deadIn s t l len).isNone && decide (d = t)
      | _ => false) = true) : UnitLands f s d c a len := by
  split at h
  · rename_i t l e
    simp only [Bool.and_eq_true, decide_eq_true_eq, Bool.not_eq_true', Option.isNone_iff_eq_none] at h
    exact .inr ⟨t, l, e, h.1.1, h.1.2, .inl h.2⟩
  · cases h

/-- The compressor of cluster 0 with a raw command of core 0, of one element. -/
def gcState : State :=
  { modCore base 0 0 fun k => { k with gcOwed := [⟨false, 0, 0, .queued⟩] } with gcs := [(0, [⟨leWords gcWords, 0, 7⟩])] }

theorem witness_compressor : hasGc gcState = true ∧ getGc gcState 0 0 = [⟨leWords gcWords, 0, 7⟩]
    ∧ (let g := gcDescOf (leWords gcWords)
       UnitSees (fencePermits gcState 0) gcState 0 0 g.gaddr (2 * g.n) [0, 0]
       ∧ UnitSees (fencePermits gcState 0) gcState 0 0 g.raddr (2 * g.n) [0, 0]
       ∧ UnitSees (fencePermits gcState 0) gcState 0 0 g.taddr (if g.mode = 2 then 2 * g.segs else 0) []
       ∧ UnitLands (fencePermits gcState 0) gcState 0 0 g.out
           (gcPerform g (kTensor (regWord gcState (dieBlk 0 + 0x20)) 7 g.rtid g.site) 7 [0, 0] [0, 0] []).packed.length
       ∧ UnitLands (fencePermits gcState 0) gcState 0 0 g.raddr (2 * g.n)
       ∧ UnitLands (fencePermits gcState 0) gcState 0 0 g.taddr (if g.mode = 2 then 2 * g.segs else 0))
    ∧ NothingAsked gcState 0 (unitGc 0) ∧ coresClocked gcState 0 = true
    ∧ (coreAt gcState c0).gcOwed = [] ++ ⟨false, 0, 0, .queued⟩ :: []
    ∧ (([] : List Owed).length + 1 = ((getGc gcState 0 0).filter fun z => z.n.val == 0).length) :=
  ⟨by decide +kernel, by decide +kernel, ⟨unitSees_of (by decide +kernel), unitSees_of (by decide +kernel), .inl (by decide +kernel),
    unitLands_of (by decide +kernel), unitLands_of (by decide +kernel), .inl (by decide +kernel)⟩, fun _ h => (by cases h),
    by decide +kernel, by decide +kernel, by decide +kernel⟩

/-- A lookup of no tokens in a tree of one node; its result goes to slot0 + 0x1000. -/
def pluReq (res : Nat) : PluReq :=
  ⟨[BitVec.ofNat 64 slot0, BitVec.ofNat 64 slot0, 0, BitVec.ofNat 64 (slot0 + res), 0x400001, 0, 0, 0], 0, 0, 1, [1, 0, 0, 0, 0, 0, 0, 0]⟩
/-- The tree: its header (FORMAT 1, HASH, one node) and a root with no child. -/
def pluTree : List Byte :=
  [1] ++ List.replicate 15 0 ++ [1] ++ List.replicate 47 0
    ++ List.replicate 8 0 ++ List.replicate 12 0xFF ++ List.replicate 5 0 ++ [1] ++ List.replicate 38 0
def pluState (q : List PluReq) (f : Option PluReq) : State := { withMem base slot0 pluTree with plus := [(0, ⟨q, f, []⟩)] }
/-- A lookup whose header waits for its entries. -/
def pluHalf : State := { withMem base slot0 pluTree with plus := [(0, ⟨[], some (pluReq 0x1000), List.replicate 64 1⟩)] }
/-- The same lookup with a reserved bit set. -/
def pluBad : PluReq := { pluReq 0x1000 with words := (pluReq 0x1000).words.set 5 1 }

theorem witness_CompressorAndPrefixUnitAnswer :
    getGc base 0 0 = []
    ∧ (hasPlu (pluState [pluReq 0x1000] none) 0 = true ∧ getPlu (pluState [pluReq 0x1000] none) 0 = ⟨[pluReq 0x1000], none, []⟩
      ∧ (pluLookup (pluState [pluReq 0x1000] none) 0 (pluReq 0x1000)).2 = some 0
      ∧ UnitLands (pqPermits (pluReq 0x1000)) (pluState [pluReq 0x1000] none) 0 0 (pqRes (pluReq 0x1000).words) 64
      ∧ NothingAsked (pluState [pluReq 0x1000] none) 0 unitPlu ∧ fabricRuns (pluState [pluReq 0x1000] none) 0 = true
      ∧ (pluState [pluReq 0x1000] none).upsets = [] ∧ ∀ e : Die, Awake (pluState [pluReq 0x1000] none) 0 e.val)
    ∧ (pqOk pluBad.words = false ∧ getPlu (pluState [pluBad] none) 0 = ⟨[pluBad], none, []⟩
      ∧ UnitLands (pqPermits pluBad) (pluState [pluBad] none) 0 0 (pqRes pluBad.words) 64)
    ∧ (getPlu (pluState [] none) 0).finished = none
    ∧ ((getPlu (pluState [] (some (pluReq 0x1000))) 0).finished = some (pluReq 0x1000)
      ∧ (wd (pluReq 0x1000).words 4).toNat / 2 ^ 16 % 64 = 0 ∧ semVal (pluState [] (some (pluReq 0x1000))) 0 0 0 = 0
      ∧ (getPlu (pluState [] (some (pluReq 0x1000))) 0).header = [] ∧ (getCore (pluState [] (some (pluReq 0x1000))) 0 0).upsets = [])
    ∧ ((getPlu pluHalf 0).finished = some (pluReq 0x1000) ∧ (getPlu pluHalf 0).header ≠ []
      ∧ UnitLands (pqPermits (pluReq 0x1000)) pluHalf 0 0 (pqRes (pluReq 0x1000).words) (getPlu pluHalf 0).header.length) :=
  ⟨by decide +kernel, ⟨by decide +kernel, by decide +kernel, by decide +kernel, unitLands_of (by decide +kernel), fun _ h => (by cases h),
    by decide +kernel, by decide +kernel, fun e => .inr (by revert e; decide +kernel)⟩,
    ⟨by decide +kernel, by decide +kernel, unitLands_of (by decide +kernel)⟩, by decide +kernel, by decide +kernel,
    by decide +kernel, by decide +kernel, unitLands_of (by decide +kernel)⟩

theorem test_plu_signals : after (.pluComplete 0) (pluState [] (some (pluReq 0x1000))) (fun t => semVal t 0 0 0 == 1) = true := by
  decide +kernel

theorem test_plu_result : after (.pluLookup 0) (pluState [pluReq 0x1000] none)
    (fun t => rf t (pluBlk 0) PLU_CNT_NODES == 1) = true := by decide +kernel

/-- A stall of die 0 and logical module 0 whose step 7 is open. -/
def stall7 : StallSt :=
  { StallSt.formed 1 1 [1, 0, 0, 0, 0, 0, 0, 0] with
    mode := .stepOpen, openStep := some 7
    job := leBytes 8 0 ++ leBytes 8 0x300000 ++ leBytes 8 0x10000000 ++ leBytes 4 0 ++ leBytes 4 64 ++ leBytes 8 0x100000
      ++ leBytes 8 0x200000 ++ leBytes 8 0 ++ leBytes 8 0x20000000 ++ List.replicate 64 0 }
/-- The stall in a module whose window maps the first GiB of die 0. -/
def inStep (s : State) : State :=
  { s with torter := { s.torter with stalls := [(0, some stall7)], window := [(0, BitVec.ofNat 64 (2 ^ 63))] } }

/-- An exchange entry with one contribution of one element, arrived (`ok`) or not. -/
def redState (ok : Bool) : State :=
  let s := setReg (inStep base) (redBlk 0 + 0x10) (BitVec.ofNat 64 0x10000)
  let s := withMem s 0x10000 ([1, 0, 0, 0, 1])
  let s := withMem s 0x10044 (leBytes 2 1 ++ [0, 0] ++ leBytes 4 1 ++ leBytes 4 4096 ++ leBytes 8 0x20000 ++ leBytes 8 0x30000 ++ leBytes 8 0x30040)
  let s := withMem s 0x20000 (if ok then leBytes 8 (7 * 2 ^ 32 + 36) else [])
  withMem s 0x21000 (leBytes 4 1 ++ leBytes 4 1 ++ leBytes 4 36 ++ leBytes 4 7 ++ List.replicate 16 0 ++ [0x80, 0x3F, 0, 0])
def redE : RedEntry := redEntryOf (peek (redState true) 0 0x10040 64)

theorem witness_ReductionPollsOrTimesOut :
    dieStep base 0 = none ∧ rf (redState false) (redBlk 0) RED_TIMEOUT_US ≠ 0
    ∧ (∀ b, dieStep (redState b) 0 = some 7 ∧ redCount (redState b) 0 = 1 ∧ (getRed (redState b) 0).done = []
        ∧ (getRed (redState b) 0).ended = [] ∧ NothingAsked (redState b) 0 unitRed
        ∧ UnitSees (fencePermits (redState b) 0) (redState b) 0 0 (redTable (redState b) 0 + BitVec.ofNat 64 (64 + 64 * 0)) 64
            (peek (redState b) 0 0x10040 64)
        ∧ redEntryOf (peek (redState b) 0 0x10040 64) = redE
        ∧ UnitSees (fencePermits (redState b) 0) (redState b) 0 0 redE.inbox 8 (leBytes 8 (if b then 7 * 2 ^ 32 + 36 else 0)))
    ∧ redE.g = 1 ∧ redE.n = 1
    ∧ UnitSees (fencePermits (redState true) 0) (redState true) 0 0 (redSlot redE 0) 36 (peek (redState true) 0 0x21000 36)
    ∧ headerOk redE 7 36 (peek (redState true) 0 0x21000 36) = true
    ∧ UnitLands (fencePermits (redState true) 0) (redState true) 0 0 redE.out 2
    ∧ UnitLands (fencePermits (redState true) 0) (redState true) 0 0 redE.done 8 := by
  refine ⟨by decide +kernel, by decide +kernel, fun b => ?_, by decide +kernel, by decide +kernel, unitSees_of (by decide +kernel),
    by decide +kernel, unitLands_of (by decide +kernel), unitLands_of (by decide +kernel)⟩
  cases b <;> exact ⟨by decide +kernel, by decide +kernel, by decide +kernel, by decide +kernel, fun _ h => (by cases h),
    unitSees_of (by decide +kernel), by decide +kernel, unitSees_of (by decide +kernel)⟩

/-- One contribution of 1.0 sums to 1.0; the done word shows the step (R302, R303). -/
theorem test_red_sums : after (.redPoll 0) (redState true)
    (fun t => peek t 0 0x30000 2 == [0x80, 0x3F] && peek t 0 0x30040 8 == leBytes 8 (7 * 2 ^ 32)) = true := by decide +kernel

theorem test_red_timeout : after (.redTimeout 0) (redState false)
    (fun t => rf t (redBlk 0) RED_STATUS_TIMEOUT == 1 && (getRed t 0).ended == [0]) = true := by decide +kernel

/-! The Steelyard on dies 0 and 1: die 1 is the leaf, die 0 the root. -/

def sty (y : StySt) (red : Nat) : State :=
  let s := setReg (inStep base) (dieBlk 0 + 0x28) 3
  let s := { s with torter := { s.torter with stalls := [(0, some { stall7 with dies := 3 })] }, stys := [(0, y), (1, y)] }
  let s := setReg (setReg s (dieBlk 1 + 0x28) 3) (styBlk 0 + 0x28) 0x50000
  if red = 0 then s else withMem (setReg s (redBlk 0 + 0x10) (BitVec.ofNat 64 0x10000)) 0x10000 [1, 0, 0, 0, 1]
def msg7 (n : Nat) : StyMsg := ⟨BitVec.ofNat 32 n, false, 1, 0x3F80, 0⟩

theorem witness_SteelyardPassesPartialsAndFactor :
    styFresh (sty ⟨[], none, false⟩ 1) 0 8 = false
    ∧ (styFresh (sty ⟨[], none, false⟩ 1) 0 7 = true ∧ (getSty (sty ⟨[], none, false⟩ 1) 0).own = none
      ∧ (getRed (sty ⟨[], none, false⟩ 1) 0).done.length < redCount (sty ⟨[], none, false⟩ 1) 0)
    ∧ (let s := sty ⟨[], some (Machine.Num.zero false), false⟩ 0
       styFresh s 1 7 = true ∧ (getSty s 1).own = some (Machine.Num.zero false) ∧ indexOf (· == 1) (styDies s 1) = some 1
       ∧ (styCombine ((getSty s 1).parts ++ [msg7 7]) false (treeKids (styDies s 1).length 1) (Machine.Num.zero false, Flags.none)).isSome
          = true)
    ∧ (let s := sty ⟨[], some (Machine.Num.zero false), false⟩ 0
       styFresh s 0 7 = true ∧ (getSty s 0).own = some (Machine.Num.zero false) ∧ (getSty s 0).sent = false
       ∧ indexOf (· == 0) (styDies s 0) = some 0 ∧ indexOf (· == lmod s 0) (styMods s 0) = some 0
       ∧ (styCombine ((getSty s 0).parts ++ [msg7 7]) false (treeKids (styDies s 0).length 0) (Machine.Num.zero false, Flags.none)).isSome
          = true
       ∧ (styCombine ((getSty s 0).parts ++ [msg7 7]) true (treeKids (styMods s 0).length 0) (Machine.Num.zero false, Flags.none)).isSome
          = true ∧ fabricRuns s 0 = true ∧ fabricRuns s 1 = true ∧ dieOk s 1 = true)
    ∧ UnitLands (fencePermits (sty ⟨[], none, false⟩ 0) 0) (sty ⟨[], none, false⟩ 0) 0 0
        (regWord (sty ⟨[], none, false⟩ 0) (styBlk 0 + 0x28)) 8 :=
  ⟨by decide +kernel, by decide +kernel, by decide +kernel, by decide +kernel, unitLands_of (by decide +kernel)⟩

theorem test_sty_stale : after (.styMessage 0 (msg7 8)) (sty ⟨[], none, false⟩ 1)
    (fun t => rf t (styBlk 0) STY_STATUS_STALE == 1) = true := by decide +kernel

/-! Closing. -/

/-- CORE_STATUS of the cores of die 0: DONE, and core 0 in a state. -/
def doneRegs (st : Nat) : Tab Word :=
  (List.range 256).map fun n =>
    (coreBlk 0 n + CORE_STATUS_STATE.off, BitVec.ofNat 64 ((if n = 0 then st else stDONE) * 2 ^ CORE_STATUS_STATE.lo))

/-- Die 0 of `stall7` with its cores DONE, core 0 in a state. -/
def closing7 (st : Nat) : State :=
  { inStep base with regs := (inStep base).regs.filter (fun p => p.1 != coreBlk 0 0 + CORE_STATUS_STATE.off) ++ doneRegs st }
/-- The same once the die has closed. -/
def closed7 : State := modDie (closing7 stDONE) 0 fun y => { y with closed := true }
/-- An append at the owner that awaits its acknowledgement. -/
def appending : StallSt :=
  { stall7 with serial := 1, append := some ⟨3, 1, some (4096, 128)⟩, lastAppend := some (tkBEGIN, 4096, 128) }
/-- A CLOSE record that awaits it, and a record of another kind. -/
def closeRec : StallSt :=
  { appending with append := none, closing := some ⟨6, 0, 0, 0⟩, lastAppend := some (tkCLOSE, 4096, 128) }
def abortRec : StallSt := { appending with append := none, lastAppend := some (tkABORT, 4096, 128) }
/-- A request of the Tally's unit to another module that has not been answered. -/
def unheard (s : State) : State := { s with asked := [⟨0, unitTally 0, true, 0, 8, 5, 1⟩] }

theorem some_of {α : Type} {x : State × Option α} (h : x.2.isSome = true) : ∃ u v, x = (u, some v) := by
  obtain ⟨u, v⟩ := x
  cases v with
  | none => cases h
  | some v => exact ⟨u, v, rfl⟩

theorem witness_DiesCloseFailOrTimeOut :
    (stallOf (closing7 stDONE) 0 = some (0, stall7) ∧ stall7.openStep = some 7 ∧ (getDie (closing7 stDONE) 0).closed = false
      ∧ (getDie (closing7 stDONE) 0).failed = false ∧ coresEnded (closing7 stDONE) 0 (· == stDONE) = true
      ∧ stashEmpty (closing7 stDONE) 0 = true ∧ exchangeFailed (closing7 stDONE) 0 = false ∧ (closing7 stDONE).upsets = []
      ∧ deadIn (closing7 stDONE) 0 (jobLedger stall7) 192 = none ∧ deadIn (closing7 stDONE) 0 (ckptAt stall7 7) (2 ^ 20) = none
      ∧ (match ledgerRead (closing7 stDONE) stall7 0 with
        | (_, some (r, qs, hs, m)) => hs.all headerBalanced && decide ((ckptImage (closing7 stDONE) 0 7
            (putAt (putAt r 36 (leBytes 2 5)) 64 (ledgerSums (closing7 stDONE) 0)) qs hs m).length ≤ 2 ^ 20)
        | _ => false) = true)
    ∧ coresEnded (inStep base) 0 (· == stDONE) = false
    ∧ (coresEnded (closing7 stFAULTED) 0 (fun v => v == stDONE || v == stFAULTED) = true ∧ closable (closing7 stFAULTED) stall7 0 = false)
    ∧ (unitStatuses base (unitTally 0) ≠ none ∧ unitStatuses (unheard base) (unitTally 0) = none
      ∧ unitStatuses base unitFill ≠ none ∧ unitStatuses { base with asked := [⟨0, unitAssign, true, 0, 8, 5, 1⟩] } unitAssign = none
      ∧ unitStatuses { base with asked := [⟨0, unitAssign, true, 0, 8, 5, 1⟩] } (unitTally 0) ≠ none)
    ∧ (appending.append = some ⟨3, 1, some (4096, 128)⟩ ∧ appending.lastAppend = some (tkBEGIN, 4096, 128)
      ∧ closeRec.lastAppend = some (tkCLOSE, 4096, 128) ∧ closeRec.closing.isSome = true
      ∧ abortRec.lastAppend = some (tkABORT, 4096, 128) ∧ tkABORT ≠ tkBEGIN ∧ tkABORT ≠ tkCLOSE ∧ abortRec.append = none) := by
  refine ⟨?_, by decide +kernel, by decide +kernel, by decide +kernel, by decide +kernel⟩
  decide +kernel

theorem witness_StepsCloseWithTheirDigests :
    getStall closed7 0 = some stall7 ∧ (stallDies closed7 stall7).all (fun d => (getDie closed7 d).closed && !(getDie closed7 d).failed && !exchangeFailed closed7 d) = true
    ∧ stall7.closing = none ∧ stall7.replaying = false ∧ stall7.restoring = none ∧ stall7.winFailed = [] ∧ stall7.period = 0
    ∧ 7 % 64 ≠ 0 ∧ closed7.torter.guardian = none ∧ closed7.asked = [] ∧ isOwn closed7 (leadMod stall7) = true
    ∧ closed7.torter.assigning = none ∧ closed7.upsets = [] ∧ stall7.methods = [] ∧ roomFor stall7 128 = true
    ∧ (winRange closed7 (jobTallyWin stall7 + placeRecord stall7 128) 128).isSome = true
    ∧ deadIn closed7 (jobTallyDie stall7) (jobTallyBase stall7 + placeRecord stall7 128) 128 = none
    ∧ (∃ u imgs v dmod w l, ckptImages stall7 7 closed7 (stallDies closed7 stall7) = (u, some imgs)
        ∧ moduleDigest u stall7 7 imgs = (v, some dmod) ∧ lossPair v stall7 0 = (w, some l))
    ∧ stall7.enders = [] := by
  refine ⟨by decide +kernel, by decide +kernel, rfl, rfl, rfl, rfl, rfl, by decide, by decide +kernel, by decide +kernel,
    by decide +kernel, by decide +kernel, by decide +kernel, rfl, by decide +kernel, by decide +kernel, by decide +kernel, ?_, rfl⟩
  obtain ⟨⟨u, imgs⟩, e⟩ : ∃ x, x = ckptImages stall7 7 closed7 (stallDies closed7 stall7) := ⟨_, rfl⟩
  obtain ⟨⟨v, dm⟩, f⟩ : ∃ x, x = moduleDigest u stall7 7 (imgs.getD []) := ⟨_, rfl⟩
  have a : (ckptImages stall7 7 closed7 (stallDies closed7 stall7)).2.isSome = true := by decide +kernel
  have b : (moduleDigest (ckptImages stall7 7 closed7 (stallDies closed7 stall7)).1 stall7 7
      ((ckptImages stall7 7 closed7 (stallDies closed7 stall7)).2.getD [])).2.isSome = true := by decide +kernel
  have c : (lossPair (moduleDigest (ckptImages stall7 7 closed7 (stallDies closed7 stall7)).1 stall7 7
      ((ckptImages stall7 7 closed7 (stallDies closed7 stall7)).2.getD [])).1 stall7 0).2.isSome = true := by decide +kernel
  rw [← e] at a b c
  rw [← f] at b c
  obtain ⟨i, rfl⟩ := Option.isSome_iff_exists.1 a
  obtain ⟨j, rfl⟩ := Option.isSome_iff_exists.1 b
  obtain ⟨w, l, g⟩ := some_of c
  exact ⟨u, i, v, j, w, l, e.symm, f.symm, g⟩

/-- A die with a faulted core fails the step, and with it one that still runs neither closes nor fails (R272). -/
theorem test_die_fails : after (.dieStepFailed 0) (closing7 stFAULTED) (fun t => (getDie t 0).failed) = true
    ∧ after (.dieStepFailed 0) (closing7 stRUN) (fun t => !(getDie t 0).failed) = true
    ∧ after (.dieClose 0) (closing7 stFAULTED) (fun t => !(getDie t 0).closed) = true := by decide +kernel

/-- A step whose die has not closed stays open (R366). -/
theorem test_step_waits : after (.stepClose 0 0 [] 0) (closing7 stDONE)
    (fun t => ((getStall t 0).map fun y => y.openStep) == some (some 7)) = true := by decide +kernel

/-! Command paths: a packet on the management path, and stalls. -/

def pk (op : Nat) (stall : Nat) (ps : List Byte) : Pkt :=
  ⟨1, 0, BitVec.ofNat 16 op, 1, BitVec.ofNat 16 stall, ps.length, false, 1, ps, 0⟩
/-- A state whose management path holds a packet. -/
def on16 (s : State) (k : Pkt) : State := modPath s 16 fun x => { x with current := some k }

theorem takes_of {s : State} {k : Pkt} {op : Nat} (h : ((getPath (on16 s k) 16).current == some k && k.opcode.toNat == op
    && stallCheck (on16 s k) k == none && !heldBack (on16 s k) 16 k) = true) : Takes (on16 s k) 16 k op := by
  simp only [Bool.and_eq_true, beq_iff_eq, Bool.not_eq_true'] at h
  obtain ⟨⟨⟨a, b⟩, c⟩, d⟩ := h
  exact ⟨a, b, c, d⟩

/-- No other path has a command to begin. -/
def othersIdle (s : State) : Prop := ∀ q : Fin 18, q ≠ 16 → pathReady s q.val = false

/-- Before B6 no stack is known to have failed. -/
theorem none_dead {s : State} (h : s.secure.stage < 6) (d l n : Nat) : deadIn s d l n = none := by
  have e : ∀ l, stackBad s d l = false := fun l => by simp [stackBad, show ¬ 6 ≤ s.secure.stage by omega]
  simp [deadIn, e]

/-- A stall of die 0 and logical module 0. -/
def st0 : StallSt := StallSt.formed 1 1 [1, 0, 0, 0, 0, 0, 0, 0]
def withStall (x : StallSt) : State := { base with torter := { base.torter with stalls := [(0, some x)] } }

theorem witness_CommandsExecuteOnTheirPath :
    commandOf (.discover 16) = some (16, 0) ∧ (getPath base 16).current = none
    ∧ (stallCheck (on16 base (pk 0x0300 0 [])) (pk 0x0300 0 []) = some scNO_STALL)
    ∧ (let s := on16 (withStall { st0 with busy := some 3 }) (pk 0x0101 0 [])
       stallCheck s (pk 0x0101 0 []) = none ∧ heldBack s 16 (pk 0x0101 0 []) = true)
    ∧ (getPath (on16 base (pk 0 0 [])) 16).accepted = [] ∧ othersIdle (on16 base (pk 0 0 []))
    ∧ ((3 : Fin 18).val < 16 ∧ queueOn (wf base (queueBlk 3) Q_CFG_ENABLE 1) 3 = true ∧ (getRing base 3).discard = false) := by
  refine ⟨by decide +kernel, by decide +kernel, by decide +kernel, by decide +kernel, by decide +kernel, ?_, by decide +kernel⟩
  unfold othersIdle
  decide +kernel

theorem witness_PowerQueryRepliesForEveryDie : Takes (on16 base (pk 0x0501 0xFFFF [])) 16 (pk 0x0501 0xFFFF []) 0x0501 :=
  takes_of (by decide +kernel)

/-- A global address of a register of die 0: `SC_HEAD`'s block. -/
def regAddr : Nat := clBlk 0 0 + 0x130

theorem witness_QueriesReply :
    Takes (on16 base (pk 0 0xFFFF [])) 16 (pk 0 0xFFFF []) 0 ∧ Takes (on16 base (pk 1 0xFFFF [5])) 16 (pk 1 0xFFFF [5]) 1
    ∧ (Takes (on16 (withStall st0) (pk 0x0106 0 [])) 16 (pk 0x0106 0 []) 0x0106 ∧ getStall (on16 (withStall st0) (pk 0x0106 0 [])) 0 = some st0)
    ∧ (Takes (on16 (withStall stall7) (pk 0x0302 0 [])) 16 (pk 0x0302 0 []) 0x0302 ∧ stall7.job ≠ [])
    ∧ Takes (on16 base (pk 0x0404 0xFFFF [])) 16 (pk 0x0404 0xFFFF []) 0x0404
    ∧ (Takes (on16 base (pk 0x0600 0xFFFF (List.replicate 32 0 ++ [1]))) 16 (pk 0x0600 0xFFFF (List.replicate 32 0 ++ [1])) 0x0600)
    ∧ Takes (on16 base (pk 0x0601 0xFFFF (leBytes 4 15 ++ leBytes 4 0 ++ leBytes 4 4064))) 16
        (pk 0x0601 0xFFFF (leBytes 4 15 ++ leBytes 4 0 ++ leBytes 4 4064)) 0x0601
    ∧ (let e : CrierEnt := ⟨9, 0, 3, 6, 0, 0, 0, 0, 1, 0⟩
       (([e]).find? fun x => x.fid == leWord (slice (leBytes 8 9) 0 8)) = some e)
    ∧ Takes (on16 base (pk 0x0700 0xFFFF (leBytes 8 9))) 16 (pk 0x0700 0xFFFF (leBytes 8 9)) 0x0700
    ∧ (Takes (on16 base (pk 0x0701 0xFFFF (leBytes 16 (2 ^ 99 + 1)))) 16 (pk 0x0701 0xFFFF (leBytes 16 (2 ^ 99 + 1))) 0x0701
      ∧ ∀ j < 128, (leAt (leBytes 16 (2 ^ 99 + 1)) 0 16).testBit j = true → domExists base j = true)
    ∧ (Takes (on16 base (pk 0x0702 0xFFFF (leBytes 8 regAddr ++ leBytes 4 2))) 16 (pk 0x0702 0xFFFF (leBytes 8 regAddr ++ leBytes 4 2)) 0x0702
      ∧ addrMod (BitVec.ofNat 64 regAddr) = lmod base 0 ∧ addrDie (BitVec.ofNat 64 regAddr) = 0
      ∧ (addrLocal (BitVec.ofNat 64 regAddr)) % 8 = 0
      ∧ ∀ j < 2, (match homeOf (addrLocal (BitVec.ofNat 64 regAddr) + 8 * j) with
          | some (.reg _) => true
          | _ => false) = true)
    ∧ Takes (on16 base (pk 0x0802 0xFFFF [])) 16 (pk 0x0802 0xFFFF []) 0x0802
    ∧ Takes (on16 base (pk 0x0900 0xFFFF [35])) 16 (pk 0x0900 0xFFFF [35]) 0x0900 := by
  refine ⟨takes_of ?_, takes_of ?_, ⟨takes_of ?_, ?_⟩, ⟨takes_of ?_, ?_⟩, takes_of ?_, takes_of ?_, takes_of ?_, ?_, takes_of ?_,
    ⟨takes_of ?_, ?_⟩, ⟨takes_of ?_, ?_⟩, takes_of ?_, takes_of ?_⟩ <;> decide +kernel

/-- The window's segment 0 lies on die 0 from 16 GiB on. -/
def winMapped (s : State) : State := { s with torter := { s.torter with window := [(0, BitVec.ofNat 64 (2 ^ 63 + 16 * 2 ^ 30))] } }
/-- `base` with die 0 counted whole at boot. -/
def whole : State := wf base (dieBlk 0) DIE_CAP_HBMOK 15
/-- STALL_FORM for die 0 of module 0. -/
def formParams (g : Nat) : List Byte := [BitVec.ofNat 8 g, 1, 0, 0, 0, 0, 0, 0] ++ leBytes 8 1 ++ leBytes 8 1 ++ List.replicate 56 0
/-- JOB_CONFIG with 64 MiB of Tally (R405). -/
def jobParams : List Byte :=
  leBytes 8 0x1234 ++ leBytes 8 0x300000 ++ leBytes 8 0x10000000 ++ leBytes 4 0 ++ leBytes 4 64 ++ leBytes 8 0x100000 ++ leBytes 8 0x200000
    ++ leBytes 4 0 ++ [1, 0, 0, 0] ++ leBytes 8 0 ++ leBytes 8 0x8000000 ++ leBytes 8 0x9000000 ++ leBytes 8 4096
    ++ leBytes 4 0 ++ leBytes 4 1 ++ leBytes 8 0x80000000 ++ leBytes 2 0x3F80 ++ List.replicate 22 0

/-- A stall with that job. -/
def job0 : StallSt := st0.withJob jobParams
def heldStall : StallSt := { job0 with mode := .held, last := some 6, openAtHold := true, lastAtHold := some 6, restored := true, stallLast := some 6 }

theorem witness_StallsAreFormedHeldAndReleased :
    (Takes (on16 whole (pk 0x0100 0 (formParams 0))) 16 (pk 0x0100 0 (formParams 0)) 0x0100
      ∧ formRefusal (on16 whole (pk 0x0100 0 (formParams 0))) 0 (formParams 0) = none
      ∧ formRefusal (on16 base (pk 0x0100 0 (formParams 1))) 0 (formParams 1) = some scINVALID_PARAM)
    ∧ Takes (on16 (withStall st0) (pk 0x0101 0 [])) 16 (pk 0x0101 0 []) 0x0101
    ∧ (Takes (on16 (winMapped (withStall st0)) (pk 0x0102 0 jobParams)) 16 (pk 0x0102 0 jobParams) 0x0102
      ∧ jobRefusal (on16 (winMapped (withStall st0)) (pk 0x0102 0 jobParams)) st0 jobParams = none
      ∧ jobRefusal base job0 jobParams = some scSTALL_BUSY)
    ∧ (Takes (on16 (withStall job0) (pk 0x0103 0 [])) 16 (pk 0x0103 0 []) 0x0103 ∧ job0.openStep = none ∧ job0.job ≠ [])
    ∧ (Takes (on16 (withStall stall7) (pk 0x0104 0 [])) 16 (pk 0x0104 0 []) 0x0104 ∧ stall7.enders = [] ∧ stall7.busy = none)
    ∧ (Takes (on16 (withStall heldStall) (pk 0x0105 0 [])) 16 (pk 0x0105 0 []) 0x0105 ∧ heldStall.mode = .held
      ∧ heldStall.openStep = none ∧ heldStall.restored = true ∧ heldStall.last = heldStall.stallLast)
    ∧ (Takes (on16 (withStall st0) (pk 0x0105 0 [])) 16 (pk 0x0105 0 []) 0x0105 ∧ st0.mode ≠ .held) := by
  refine ⟨⟨takes_of ?_, ?_, ?_⟩, takes_of ?_, ⟨takes_of ?_, ?_, ?_⟩, ⟨takes_of ?_, ?_, ?_⟩, ⟨takes_of ?_, ?_, ?_⟩,
    ⟨takes_of ?_, ?_, ?_, ?_, ?_⟩, takes_of ?_, ?_⟩ <;> decide +kernel

/-- The smallest chain table: one strand on rows 0 and 1 of module 0. -/
def chainTbl : List Byte :=
  [1, 1] ++ leBytes 2 1 ++ leBytes 2 16 ++ leBytes 2 32 ++ [0, 1] ++ leBytes 2 1 ++ leBytes 4 16 ++ leBytes 4 16 ++ leBytes 12 0
    ++ leBytes 8 0xFFF ++ leBytes 4 8192 ++ leBytes 20 0 ++ leBytes 64 0 ++ [8] ++ leBytes 63 0 ++ leBytes 64 0
/-- A protection entry: 64 KiB at 0x1000000 by snapshot, with its dirty maps. -/
def protTbl : List Word := [5, 0x1000000, 0x10000, 0x2000000, 0x2000040, 0, 0, 0]
def dies12 : StallSt := { st0 with dies := 0xFFF }
/-- The window's bytes on die 0. -/
def winHolds (x : StallSt) (bs : List Byte) : State := winMapped (withMem (withStall x) 0x400000000 bs)
def windowParams : List Byte := leBytes 8 (2 ^ 63 + 16 * 2 ^ 30) ++ leBytes 2040 0
def progParams : List Byte := leBytes 8 0 ++ leBytes 4 16 ++ leBytes 4 32 ++ leBytes 8 1 ++ leBytes 32 1
def copyParams : List Byte := leBytes 8 0 ++ leBytes 8 4096 ++ leBytes 8 0x1000 ++ leBytes 8 8
def exchParams : List Byte := leBytes 8 0 ++ leBytes 8 0 ++ leBytes 8 0x10000 ++ leBytes 4 64
def tblParams (n : Nat) : List Byte := leBytes 8 0 ++ leBytes 4 n
def snapped : StallSt := { st0 with snaps := [⟨some 5, true, false⟩] }

/-- A read of the window gives these bytes. -/
def winGives (s : State) (off : Nat) (bs : List Byte) : Bool := (winRead s off bs.length).2 == some bs

theorem witness_StepsArePrepared :
    (Takes (on16 base (pk 0x0200 0xFFFF windowParams)) 16 (pk 0x0200 0xFFFF windowParams) 0x0200
      ∧ (leWords windowParams).all (winEntryOk base) = true ∧ distinctEntries (leWords windowParams) = true
      ∧ windowBusy base = false ∧ windowBusy (withStall { st0 with busy := some 3 }) = true ∧ base.upsets = [])
    ∧ (Takes (on16 (winHolds st0 [7]) (pk 0x0201 0 progParams)) 16 (pk 0x0201 0 progParams) 0x0201
      ∧ woffOk (winHolds st0 [7]) 0 16 = true ∧ st0.openStep = none ∧ (∀ d < 36, (1 : Nat).testBit d = true → st0.dies.getLsbD d = true)
      ∧ winGives (winHolds st0 [7]) 0 (7 :: List.replicate 15 0) = true)
    ∧ (Takes (on16 (winHolds st0 []) (pk 0x0202 0 copyParams)) 16 (pk 0x0202 0 copyParams) 0x0202
      ∧ winRange (winHolds st0 []) 4096 8 = some [(0, 0x400001000, 8)]
      ∧ stallArea (winHolds st0 []) st0 (leWord (slice copyParams 16 8)) 8 = .at 0 0x1000)
    ∧ (Takes (on16 (winHolds st0 [1]) (pk 0x0204 0 exchParams)) 16 (pk 0x0204 0 exchParams) 0x0204
      ∧ homeOf 0x10000 = some .hbm ∧ deadIn (winHolds st0 [1]) 0 0x10000 64 = none ∧ st0.dies.getLsbD 0 = true ∧ firstBad 0x10000 64 = none ∧ winGives (winHolds st0 [1]) 0 (1 :: List.replicate 63 0) = true
      ∧ exchOk (1 :: List.replicate 63 0) = true)
    ∧ (Takes (on16 (winHolds dies12 chainTbl) (pk 0x0203 0 (tblParams 256))) 16 (pk 0x0203 0 (tblParams 256)) 0x0203
      ∧ chainTbl.length = 256 ∧ winGives (winHolds dies12 chainTbl) 0 chainTbl = true ∧ chainOk dies12 chainTbl = true)
    ∧ (Takes (on16 (winHolds st0 ((protTbl.map wordBytes).flatten)) (pk 0x0400 0 (tblParams 1))) 16 (pk 0x0400 0 (tblParams 1)) 0x0400
      ∧ winGives (winHolds st0 ((protTbl.map wordBytes).flatten)) 0 ((protTbl.map wordBytes).flatten) = true
      ∧ chunks 8 64 (leWords ((protTbl.map wordBytes).flatten)) = [protTbl] ∧ tableOk (winHolds st0 ((protTbl.map wordBytes).flatten)) st0 [protTbl] = true
      ∧ base.torter.guardian = none)
    ∧ (Takes (on16 (withStall snapped) (pk 0x0402 0 (leBytes 8 5))) 16 (pk 0x0402 0 (leBytes 8 5)) 0x0402
      ∧ ∃ a ∈ snapped.snaps, a.step = some (leAt (leBytes 8 5) 0 8) ∧ a.complete = true) := by
  refine ⟨⟨takes_of ?_, ?_, ?_, ?_, ?_, ?_⟩, ⟨takes_of ?_, ?_, ?_, ?_, ?_⟩, ⟨takes_of ?_, ?_, ?_⟩,
    ⟨takes_of ?_, ?_, ?_, ?_, ?_, ?_, ?_⟩, ⟨takes_of ?_, ?_, ?_, ?_⟩, ⟨takes_of ?_, ?_, ?_, ?_, ?_⟩, takes_of ?_, ?_⟩ <;> decide +kernel

/-- STEP_BEGIN of a step, with no input. -/
def beginParams (n : Nat) : List Byte := leBytes 8 n ++ leBytes 56 0
def job6 : StallSt := { job0 with last := some 6, tallyPos := 4096, serial := 1 }

theorem witness_StepBeginIsRejected :
    (Takes (on16 (withStall stall7) (pk 0x0300 0 (beginParams 8))) 16 (pk 0x0300 0 (beginParams 8)) 0x0300 ∧ stall7.append = none
      ∧ stall7.openStep.isSome = true)
    ∧ (Takes (on16 (withStall job6) (pk 0x0300 0 (beginParams 8))) 16 (pk 0x0300 0 (beginParams 8)) 0x0300
      ∧ job6.openStep = none ∧ job6.last = some 6 ∧ leAt (beginParams 8) 0 8 ≠ 6 + 1) := by
  refine ⟨⟨takes_of ?_, ?_, ?_⟩, takes_of ?_, ?_, ?_, ?_⟩ <;> decide +kernel

def closed6 : CloseRec := ⟨6, 0, 0, 0, 0, false, none⟩

theorem witness_StepsBeginAndEnd :
    (let s := on16 (setCoreState (withStall job6) 0 0 stDONE) (pk 0x0300 0 (beginParams 7))
     Takes s 16 (pk 0x0300 0 (beginParams 7)) 0x0300 ∧ job6.job ≠ [] ∧ stepNumberOk job6 7 = true ∧ coverOk s 0 job6 = true ∧ s.torter.assigning = none
     ∧ (∀ o m, o + m ≤ jobTallyBytes job6 → deadIn s (jobTallyDie job6) (jobTallyBase job6 + o) m = none)
     ∧ job6.mode ≠ .held ∧ s.torter.guardian = none ∧ s.asked = [] ∧ (stepInputs s (beginParams 7)).2 = some []
     ∧ findRecord job6 tkBEGIN 7 = none ∧ stepPlans job6 7 0 [] = some (0, [])
     ∧ roomFor job6 (64 + up64 (beginBody (beginParams 7) [] 0 []).length) = true ∧ (stallDies s job6).all (dieReady s) = true)
    ∧ (Takes (on16 (withStall stall7) (pk 0x0301 0 (leBytes 8 7))) 16 (pk 0x0301 0 (leBytes 8 7)) 0x0301
      ∧ ∀ d ∈ stallDies (withStall stall7) stall7, (getDie (withStall stall7) d).failed = false)
    ∧ (let s := modDie (withStall stall7) 0 fun y => { y with failed := true }
       ∃ d ∈ stallDies s stall7, (getDie s d).failed = true)
    ∧ (Takes (on16 (withStall { job6 with closes := [closed6] }) (pk 0x0301 0 (leBytes 8 6))) 16 (pk 0x0301 0 (leBytes 8 6)) 0x0301
      ∧ job6.openStep ≠ some 6 ∧ ([closed6].find? fun c => c.step == 6) = some closed6 ∧ job6.last = some 6)
    ∧ (Takes (on16 (withStall job6) (pk 0x0301 0 (leBytes 8 3))) 16 (pk 0x0301 0 (leBytes 8 3)) 0x0301 ∧ job6.closes = []) := by
  refine ⟨⟨takes_of ?_, ?_, ?_, ?_, ?_, fun o m _ => none_dead (by decide) _ _ _, ?_, ?_, ?_, ?_, ?_, ?_, ?_, ?_⟩, ⟨takes_of ?_, ?_⟩, ?_,
    ⟨takes_of ?_, ?_, ?_, ?_⟩, takes_of ?_, ?_⟩ <;> decide +kernel

/-! Recovery and guardians. -/

/-- A held stall with 1 MiB of Tally, its step 6 closed and a snapshot of step 3; on this module it is on die 0 or on none. -/
def lost (on : Bool) : StallSt :=
  { st0 with
    dies := if on then 1 else 0, mode := .held, lastAtHold := some 6, stallLast := some 6, snaps := [⟨some 3, true, false⟩]
    job := leBytes 28 0 ++ leBytes 4 1 ++ leBytes 96 0 }
/-- Addresses of the guardian's copies of the Tally area and of the first word of its generation of step 3. -/
def guardArea : Word := guardAddr base 1 0 0 0 0
def guardGen : Word := guardAddr base 1 0 1 1 0
/-- A fill of that stall to step 3: the guardian has answered the read of the Tally area, whose first record it gave, and refused
that of its generation. -/
def filling (on : Bool) : State :=
  let s := withStall (lost on)
  { s with
    torter := { s.torter with fill := some ⟨0, 0, 3, 16⟩, guardian := some 1 }
    asked := [⟨0, unitFill, false, guardArea, 2 ^ 20, 0, 1⟩, ⟨0, unitFill, false, guardGen, 8, 1, 1⟩]
    arrived := [(0, unitFill, 0, 0, recordOf base 1 0 0 []), (0, unitFill, 1, 1, [])] }

theorem pieces_cons (f n : Nat) (a : Word) (h : n ≠ 0) : ∃ p r, pieces (f + 1) a n = p :: r := by simp [pieces, h]

theorem filling_guard (on : Bool) : guardTally (filling on) 0 (lost on) = recordOf base 1 0 0 [] ++ [] := by
  have a : guardAddr (filling on) 1 0 0 0 0 = guardArea := rfl
  have q : asksOf (filling on) unitFill = [⟨0, unitFill, false, guardArea, 2 ^ 20, 0, 1⟩, ⟨0, unitFill, false, guardGen, 8, 1, 1⟩] := rfl
  have e : [⟨0, unitFill, false, guardArea, 2 ^ 20, 0, 1⟩, ⟨0, unitFill, false, guardGen, 8, 1, 1⟩].find?
      (fun q : Ask => !q.write && q.addr == guardArea && q.len == 2 ^ 20) = some ⟨0, unitFill, false, guardArea, 2 ^ 20, 0, 1⟩ := by simp
  have b : answersOf (filling on) 0 unitFill 0 1 = some [(0, recordOf base 1 0 0 [])] := rfl
  have n : jobTallyBytes (lost on) = 2 ^ 20 := by cases on <;> decide +kernel
  have g : (filling on).torter.guardian = some 1 := rfl
  have w : (1 : BitVec 9).toNat = 1 := rfl
  obtain ⟨p, r, c⟩ := pieces_cons (2 ^ 20 / 256 + 1) (2 ^ 20) guardArea (by decide)
  simp only [guardTally, g, n, w, a, q, e, b, c, List.zip_cons_cons, List.zip_nil_right, List.map, List.flatten, if_true]
  rfl

theorem filling_tally (on : Bool) : ∃ area, fillTally (filling on) 0 (lost on) = some area := by
  have k : recordOk (recordOf base 1 0 0 [] ++ []) = true := by decide +kernel
  simp only [fillTally, filling_guard, joinTally, k, if_true, Option.map_some]
  exact ⟨_, rfl⟩

/-- The stall as it stands once the records of an area have been found. -/
def foundIn (on : Bool) (area : List Byte) : StallSt :=
  { (lost on).withTally area 3 with
    lastAtHold := some (((lost on).withTally area 3).closes.foldl (fun m c => max m c.step) 0) }

theorem foundIn_extents (on : Bool) (area : List Byte) : extents (foundIn on area) = [] := rfl
theorem foundIn_dies (on : Bool) (area : List Byte) (s : State) : stallDies s (foundIn on area) = stallDies s (lost on) := rfl

theorem filling_gen (on : Bool) (area : List Byte) :
    fillRead 0 (filling on) (jobTallyDie (foundIn on area), 1, 1, 8) = (filling on, .failed) := by
  have j : jobTallyDie (foundIn on area) = 0 := by
    have : jobTallyDie (foundIn on area) = jobTallyDie (lost on) := rfl
    rw [this]
    cases on <;> decide +kernel
  have a : guardAddr (filling on) 1 0 1 1 0 = guardGen := rfl
  have g : (filling on).torter.guardian = some 1 := rfl
  have w : (1 : BitVec 9).toNat = 1 := rfl
  have q : (filling on).asked = [⟨0, unitFill, false, guardArea, 2 ^ 20, 0, 1⟩, ⟨0, unitFill, false, guardGen, 8, 1, 1⟩] := rfl
  have b : answersOf (filling on) 0 unitFill 1 1 = some [(1, [])] := rfl
  have r : readAway (filling on) 0 unitFill guardGen 8 = (filling on, .error (.poison guardGen)) := by
    simp [readAway, q, b, pieces, firstFailed]
  simp only [fillRead, guardRead, g, j, w, a, r, Nat.reduceEqDiff, if_false]

theorem filling_slow (on : Bool) (area : List Byte) :
    fillState (filling on) 0 3 (foundIn on area)
      = restoreWindow (filling on) 0 (jobSnapWin (foundIn on area) 0) 3 (foundIn on area) := by
  have o : otherSnap (filling on) 0 (foundIn on area) = false := by
    have : popcount 512 (hasMod (foundIn on area)) = popcount 512 (hasMod st0) := rfl
    have h : popcount 512 (hasMod st0) = 1 := by decide +kernel
    simp [otherSnap, this, h]
  have q : fillFast (filling on) 0 3 (foundIn on area) = (filling on, .failed) := by
    simp [fillFast, allMirror, foundIn_extents, o, filling_gen]
  simp [fillState, q]

theorem no_bytes (s : State) (o : Nat) : winRange s o 0 = some [] := by simp [winRange, winPieces]
theorem no_window {s : State} {o n : Nat} (h : s.torter.window = []) (z : n ≠ 0) : winRange s o n = none := by
  have a : ∀ o, winAt s o = none := fun o => by
    simp only [winAt, h]
    have c : bits (tget (0 : Word) [] (o / 2 ^ 30)).toNat 63 63 = 0 := by
      have : tget (0 : Word) [] (o / 2 ^ 30) = 0 := rfl
      rw [this]
      decide
    have k : decide (bits (tget (0 : Word) [] (o / 2 ^ 30)).toNat 63 63 = 1) = false := by rw [c]; rfl
    rw [k, Bool.and_false]
    rfl
  simp [winRange, winPieces, a, z]

theorem off_dies (s : State) : stallDies s (lost false) = [] := by simp [stallDies, lost]

theorem filling_state (area : List Byte) : ∃ u imgs, fillState (filling false) 0 3 (foundIn false area) = (u, .ok imgs) := by
  rw [filling_slow]
  simp [restoreWindow, snapSegs, foundIn_extents, foundIn_dies, off_dies, no_bytes, fetchAll]

theorem filling_lost (area : List Byte) : ∃ u, fillState (filling true) 0 3 (foundIn true area) = (u, .failed) := by
  rw [filling_slow]
  have d : stallDies (filling true) (lost true) = [0] := by decide +kernel
  have c : (snapSegs (filling true) (foundIn true area) 3 0 []).foldl (fun n q => n + q.len) 0 ≠ 0 := by
    have e : (snapSegs (filling true) (foundIn true area) 3 0 []).map (·.len) = List.replicate 16 65536 := by
      simp only [snapSegs, foundIn_dies, d]
      generalize ckptAt (foundIn true area) 3 = a
      have r : List.range (ceilDiv (2 ^ 20) 65536) = List.range 16 := by decide +kernel
      simp only [pieceSegs, r, List.length_singleton, List.range_one, List.map_cons, List.map_nil, List.flatten_cons, List.flatten_nil,
        List.append_nil, List.map_map]
      change (List.range 16).map (fun j => min 65536 (2 ^ 20 - 65536 * j)) = List.replicate 16 65536
      decide +kernel
    have k : ∀ (l : List SnapSeg) n, l.foldl (fun n q => n + q.len) n = (l.map (·.len)).foldl (· + ·) n := fun l => by
      induction l with
      | nil => intro n; rfl
      | cons q l h => intro n; exact h _
    rw [k, e]
    decide
  refine ⟨filling true, ?_⟩
  simp [restoreWindow, foundIn_extents, no_window (show (filling true).torter.window = [] from rfl) c]

/-- FILL_START for step 3 of the stall `job0` (R372). -/
def fillParams : List Byte := leBytes 8 0 ++ leBytes 8 3 ++ formParams 0 ++ jobParams

/-- Values that the peers of an assignment must have to be taken: equal revisions, and room at the guardian (R363). -/
theorem witness_assignments (s : State) (w m : Nat) (hw : w ≠ m)
    (hp : (topoPlace s w).isSome = true ∧ (topoPlace s m).isSome = true) (hr : peerRev s m = peerRev s w)
    (room : needOf s w ≤ roomOf s m w) : assignRefusal s w m true = none := by
  have a : (topoPlace s w).isNone = false := by rw [Option.isNone_eq_false_iff]; exact hp.1
  have b : (topoPlace s m).isNone = false := by rw [Option.isNone_eq_false_iff]; exact hp.2
  simp [assignRefusal, hw, a, b, hr, Nat.not_lt.2 room]

/-- A topology that places modules 0, 1 and 2, and a part whose revision is that of module 1, whatever it is. -/
def placed : State :=
  { base with
    torter := { base.torter with topo := leBytes 64 0 ++ leBytes 2 32768 ++ leBytes 2 32769 ++ leBytes 2 32770 }
    secure := { base.secure with variant := { base.secure.variant with algrev := Config.peerAlgrev 1 0 } } }
def assignPk : Pkt := { pk 0x0401 0xFFFF (leBytes 2 0 ++ leBytes 2 1) with flags := 1 }

theorem witness_RecoveryBringsBackAStep :
    (let s := on16 (withStall (lost false)) (pk 0x0405 0 (leBytes 8 3))
     Takes s 16 (pk 0x0405 0 (leBytes 8 3)) 0x0405 ∧ (lost false).job ≠ [] ∧ (lost false).openStep = none ∧ lastOfStall s 0 (lost false) = some 6
      ∧ indexOf (fun a : SnapSlot => a.step == some 3 && a.complete) (lost false).snaps = some 0
      ∧ ∃ u imgs, restoreWindow (setStall s 0 (some (lost false))) 0 (jobSnapWin (lost false) 0) 3 (lost false) = (u, .ok imgs))
    ∧ (Takes (on16 (withStall job0) (pk 0x0405 0 (leBytes 8 3))) 16 (pk 0x0405 0 (leBytes 8 3)) 0x0405 ∧ job0.mode ≠ .held)
    ∧ (Takes (on16 (withStall job0) (pk 0x0403 0 fillParams)) 16 (pk 0x0403 0 fillParams) 0x0403 ∧ fillParamsOk (withStall job0) 0 job0 fillParams = true
      ∧ job0.busy = none)
    ∧ base.torter.fill = none
    ∧ (∀ on, (filling on).torter.fill = some ⟨0, 0, 3, 16⟩ ∧ unitStatuses (filling on) unitFill ≠ none ∧ getStall (filling on) 0 = some (lost on)
      ∧ (∃ area, fillTally (filling on) 0 (lost on) = some area) ∧ ∀ area, lastOfStall (filling on) 0 (foundIn on area) = some 6)
    ∧ fillTally (withStall { st0 with job := [0] }) 0 { st0 with job := [0] } = none
    ∧ (∀ area, (∃ u imgs, fillState (filling false) 0 3 (foundIn false area) = (u, .ok imgs))
      ∧ ∃ u, fillState (filling true) 0 3 (foundIn true area) = (u, .failed))
    ∧ (Takes (on16 placed assignPk) 16 assignPk 0x0401 ∧ assignRefusal (on16 placed assignPk) 0 1 true = none
      ∧ isOwn (on16 placed assignPk) 0 = true ∧ stalls (on16 placed assignPk) = [] ∧ (on16 placed assignPk).torter.assigning = none)
    ∧ assignRefusal placed 1 1 true = some scINVALID_PARAM := by
  refine ⟨⟨takes_of (by decide +kernel), by decide +kernel, rfl, by decide +kernel, by decide +kernel, ?_⟩,
    ⟨takes_of (by decide +kernel), by decide +kernel⟩, ⟨takes_of (by decide +kernel), by decide +kernel, rfl⟩, rfl,
    fun on => ⟨rfl, ?_, rfl, filling_tally on, fun _ => rfl⟩, by decide +kernel, fun area => ⟨filling_state area, filling_lost area⟩,
    ⟨takes_of ?_, witness_assignments _ 0 1 (by decide) ⟨by decide +kernel, by decide +kernel⟩ ?_ ?_, by decide +kernel, by decide +kernel,
      by decide +kernel⟩, by simp [assignRefusal]⟩
  · have p : extents (lost false) = [] := rfl
    exact ⟨_, [], by simp [restoreWindow, snapSegs, p, off_dies, no_bytes, fetchAll]; rfl⟩
  · intro h
    have : unitStatuses (filling on) unitFill = some [0, 1] := rfl
    rw [this] at h
    cases h
  · decide +kernel
  · have a : isOwn (on16 placed assignPk) 1 = false := by decide +kernel
    have b : isOwn (on16 placed assignPk) 0 = true := by decide +kernel
    simp only [peerRev, a, b, Bool.false_eq_true, if_false, if_true]
    rfl
  · decide +kernel

/-- The same from the ward's side and from elsewhere, the peers' values being as R363 asks. -/
theorem witness_assignments_elsewhere : isOwn placed 1 = false ∧ isOwn placed 2 = false ∧ isOwn placed 0 = true
    ∧ (topoPlace placed 2).isSome = true := by decide +kernel

/-! Registers, memory, the mesh, links. -/

def memReq (w : Bool) (src : ReqSrc) (a : Nat) : MemReq := ⟨0, src, w, BitVec.ofNat 64 a, 8, List.replicate 8 1, .clean⟩

/-- A die with every direction of its mesh down, seen from die 0. -/
def meshDown : State := setReg (wf base (meshBlk 0) MESH_STATUS_DOWN 15) (dieBlk 0 + 0x28) 3

theorem witness_RegisterWritesFollowTheirAccess :
    (linkBlk 0 + 8 = linkBlk 0 + 8 ∧ locate (dmaBlk 0 0 + 0x10) = some ⟨.dma, 0, 0, 0, 0x10⟩ ∧ byAccess ⟨.dma, 0, 0, 0, 0x10⟩ = true
      ∧ (dmaBlk 0 0 + 0x10) % 8 = 0 ∧ dieOk base ((dmaBlk 0 0 + 0x10) / 2 ^ 49) = true)
    ∧ unitGated base (dmaBlk 0 0 + 0x10) = false
    ∧ unitGated (modPow base 0 fun p => { p with vcore := .off }) (dmaBlk 0 0 + 0x10) = true
    ∧ ((locate (pwrBlk 0 + 0x18)).isSome = true)
    ∧ ((locate (queueBlk 3 + 0)).isSome = true ∧ queueOn base 3 = false ∧ (locate (queueBlk 16 + 0x38)).isSome = true)
    ∧ queueOn (wf base (queueBlk 3) Q_CFG_ENABLE 1) 3 = true ∧ fget (2 : Word) Q_CFG_ENABLE = 0 := by decide +kernel

/-- Module 1 is reached on row 0. -/
def routed (s : State) : State := setReg s (linkBlk 0 + 0x1000) 0x8000
/-- Die 1 stands in Doze. -/
def dozing : State := wf (wf (setReg base (dieBlk 0 + 0x28) 3) (pwrBlk 1) PWR_STATUS_STATE 2) (pwrBlk 1) PWR_STATUS_POINT 5
def failingStack : State :=
  { wf base (dieBlk 0) DIE_CAP_HBMOK 14 with secure := { base.secure with stage := 7 } }

theorem mesh_stays {s : State} {a b : Nat} (h : belowRun s b = false) : meshWake s a b = s := by simp [meshWake, wakeDie, h]
theorem awake_stays {s : State} {d : Nat} (h : belowRun s d = false) (p : pwState s d = 0) : wakeAll s d 3 = s := by
  simp [wakeAll, wakeDie, h, p]

theorem witness_RequestsArePerformedAtTheirHome :
    (Performed base (memReq true (.core 0) slot0) 8 0 slot0 ∧ ¬ isRegister slot0 ∧ routeDown base 0 0 = false ∧ deadIn base 0 slot0 8 = none)
    ∧ (Performed base (memReq false (.core 0) slot0) 8 0 slot0 ∧ (memReq false (.core 0) slot0).ecc = .clean
      ∧ memSound base 0 slot0 8 = true)
    ∧ (Performed base (memReq false .cxl 0x1000) 8 0 0x1000 ∧ ¬ isRegister 0x1000 ∧ memSound base 0 0x1000 8 = true)
    ∧ (Performed meshDown (memReq false (.core 0) (2 ^ 49 + 0x1000)) 8 1 0x1000 ∧ routeDown meshDown 0 1 = true)
    ∧ (requestTarget dozing (memReq false (.core 0) (2 ^ 49 + 0x1000)) 8 = .here 1 0x1000
      ∧ requestWaits (requestWake dozing (memReq false (.core 0) (2 ^ 49 + 0x1000)) 1 0x1000) (memReq false (.core 0) (2 ^ 49 + 0x1000)) 1 0x1000 = true)
    ∧ requestTarget (routed base) (memReq true .link (2 ^ 55 + 0x1000)) 8 = .away 1 0 0x1000
    ∧ requestTarget base (memReq true .cxl (2 ^ 48)) 8 = .unmapped (BitVec.ofNat 64 (2 ^ 48))
    ∧ (srcRouter (.core 0) = some (0, some 0) ∧ requestTarget base (memReq true (.core 0) (2 ^ 49 + 0x1000)) 8 = .fenced) :=
  ⟨⟨⟨by decide +kernel, rfl, by decide +kernel⟩, not_register (by decide +kernel), by decide +kernel, by decide +kernel⟩,
    ⟨⟨by decide +kernel, rfl, by decide +kernel⟩, rfl, by decide +kernel⟩,
    ⟨⟨by decide +kernel, awake_stays (by decide +kernel) (by decide +kernel), by decide +kernel⟩, not_register (by decide +kernel),
      by decide +kernel⟩,
    ⟨⟨by decide +kernel, mesh_stays (by decide +kernel), by decide +kernel⟩, by decide +kernel⟩, by decide +kernel⟩

/-- A write to a failed stack changes nothing and a read of it is poison (R181). -/
theorem test_failed_stack : after (.memoryRequest (memReq true .cxl 0)) failingStack (fun t => t.mem == failingStack.mem) = true
    ∧ after (.memoryRequest (memReq false .cxl 0)) failingStack (fun t => t.outbox.getLast? == some (.read [] true)) = true := by
  decide +kernel

theorem test_fence_counts : after (.memoryRequest (memReq true (.core 0) (2 ^ 49 + 0x1000))) base
    (fun t => rf t (clBlk 0 0) CL_RT_CNT_FENCE == 1 && t.mem == base.mem) = true := by decide +kernel

/-- Controller 1 of die 0 with a spare being copied; edge E of die 0 recentring after `n` failures. -/
def sparing : State := setHbm base 0 1 ⟨some 7, none, none⟩
def slipping (n : Nat) : State := setEdge base 0 1 ⟨true, n⟩

theorem witness_ScrubbingSparingRepairAndMeshEdges :
    (addrDie (0x1000 : Word) = 0 ∧ homeOf (addrLocal 0x1000) = some .hbm ∧ rfb (wf base (dieBlk 0) SCRUB_CTRL_EN 1) (dieBlk 0) SCRUB_CTRL_EN = true
      ∧ rfb (wf base (dieBlk 0) SCRUB_CTRL_EN 0) (dieBlk 0) SCRUB_CTRL_EN = false
      ∧ (getPow base 0).hbm = .running ∧ memSound base 0 0x1000 64 = true ∧ fabricRuns base 0 = true)
    ∧ (rfb base (hbmBlk 0 1) HBM_STATUS_SPARE_BUSY = false ∧ rfb base (hbmBlk 0 1) HBM_STATUS_SPARE_USED = false)
    ∧ rfb (wf base (hbmBlk 0 1) HBM_STATUS_SPARE_BUSY 1) (hbmBlk 0 1) HBM_STATUS_SPARE_BUSY = true
    ∧ (getHbm sparing 0 1).copying = some 7 ∧ (getHbm base 0 1).copying = none
    ∧ edgePresent base 0 1 = true ∧ edgeDown base 0 1 = false ∧ edgePresent base 0 0 = false
    ∧ (getEdge base 0 1).recentring = false ∧ (getEdge (slipping 1) 0 1) = ⟨true, 1⟩ ∧ (getEdge (slipping 2) 0 1) = ⟨true, 2⟩ := by
  decide +kernel

theorem test_third_recentring_fails : after (.meshRecentreComplete 0 1 false) (slipping 2) (fun t => edgeDown t 0 1) = true := by
  decide +kernel

theorem test_scrub_wraps : after (.scrubRead 0x47FFFFFFC0 .clean) (wf base (dieBlk 0) SCRUB_CTRL_EN 1)
    (fun t => rf t (dieBlk 0) SCRUB_POS_ADDR == 0) = true := by decide +kernel

/-- Link 0 enabled, in a state, changed. -/
def link0 (st : Nat) (f : LinkSt → LinkSt) : State :=
  wf (wf (modLink (modRow base 0 fun r => { r with lasersOff := false }) 0 f) (linkBlk 0) LK_CTRL_ENABLE 1) (linkBlk 0) LK_STATUS_STATE st
def okResult : TrainResult := ⟨true, 0x1F, 0x7F⟩
def negMsg (vmin vmax : Nat) : NegMsg :=
  ⟨true, BitVec.ofNat 8 vmin, BitVec.ofNat 8 vmax, 3, 1, 1, 5, 6, 0, false, 0, 0, 0, 0, 0⟩
def ready (p : Option Word) : State :=
  link0 2 fun l => { l with phase := .negotiate, negSent := true, negGot := true, negAcked := true, lastPhys := p }

theorem witness_LinksTrainAndNegotiate :
    (rfb (link0 3 id) (linkBlk 0) LK_CTRL_ENABLE = true ∧ lkState (link0 3 id) 0 = 3 ∧ lkState (link0 5 id) 0 = 5
      ∧ lkState (link0 0 id) 0 = 0 ∧ rfb (wf base (linkBlk 0) LK_CTRL_ENABLE 0) (linkBlk 0) LK_CTRL_ENABLE = false
      ∧ fabricRuns (link0 3 id) 0 = true ∧ rowDark (link0 3 id) 0 = false
      ∧ rowDark base 0 = true)
    ∧ ((linkAt base 0).phase = .idle ∧ okResult.ok = true ∧ 5 ≤ laneCount okResult.rxPass ∧ 5 ≤ laneCount okResult.txPass
      ∧ laneMap 0x1F = some 0x1F ∧ laneMap 0x7F = some 0x3F ∧ laneCount 0x0F < 5)
    ∧ (∀ ph ∈ [TrainPhase.signal, .equalise, .laneTest, .map], (linkAt (link0 1 fun l => { l with phase := ph }) 0).phase = ph)
    ∧ (let l := linkAt (ready none) 0
       l.phase = .negotiate ∧ (l.negSent && l.negGot && l.negAcked) = true ∧ l.txq = [] ∧ l.ctlq = [] ∧ l.lastPhys = none)
    ∧ ((linkAt (ready (some 1)) 0).lastPhys = some 1 ∧ 1 ≠ regWord (ready (some 1)) (linkBlk 0 + 0x18))
    ∧ (linkAt (link0 1 fun l => { l with phase := .signal, attempts := 1 }) 0).attempts < 2
    ∧ 2 ≤ (linkAt (link0 1 fun l => { l with phase := .signal, attempts := 2 }) 0).attempts
    ∧ (lkState (link0 2 id) 0 = 2 ∧ 1 < max (runningBank (link0 2 id)).lvmin.toNat (negMsg 2 1).vmin.toNat
      ∧ min (runningBank (link0 2 id)).lvmax.toNat (negMsg 2 1).vmax.toNat = 1
      ∧ max (runningBank (link0 2 id)).lvmin.toNat (negMsg 1 1).vmin.toNat ≤ min (runningBank (link0 2 id)).lvmax.toNat (negMsg 1 1).vmax.toNat)
    ∧ (linkAt (link0 2 fun l => { l with ctlq := [[0]] }) 0).ctlq ≠ [] ∧ ControlGoes (link0 2 id) 0 := by
  refine ⟨by decide +kernel, by decide +kernel, by decide +kernel, by decide +kernel, by decide +kernel, by decide +kernel, by decide +kernel,
    by decide +kernel, by decide +kernel, ⟨by decide +kernel, by decide +kernel, by decide +kernel⟩⟩

theorem test_neg_shows_the_partner : after (.neg 0 (negMsg 1 1)) (link0 2 id)
    (fun t => rf t (linkBlk 0) LK_STATUS_VERSION == 1 && rf t (linkBlk 0) LK_PARTNER_POS == 6) = true := by decide +kernel

/-- A flit with its check: IDLE with the sequence number expected. -/
def idleFlit : List Byte := flitBytes 0 0 0xFFF false (0, false, 0) 0xFF []

theorem witness_FlitsAreAcceptedOrSentAgain :
    (lkState base 0 ≠ 2 ∧ lkState base 0 ≠ 3) ∧ ¬ FlitGood (linkAt (link0 3 id) 0) idleFlit false
    ∧ (FlitGood (linkAt (link0 3 id) 0) idleFlit true ∧ (linkAt (link0 3 id) 0).txq = [] ∧ (linkAt (link0 3 id) 0).ctlq = [] ∧ leAt idleFlit 2 2 / 4096 % 2 = 0
      ∧ (linkAt (link0 3 id) 0).sinceAck < 63)
    ∧ (linkAt (link0 3 fun l => { l with replay := [(0, idleFlit)], replays := 2 }) 0).replay ≠ []
    ∧ rfb (link0 3 id) (linkBlk 0) LK_CTRL_ENABLE = true ∧ rowDark (link0 3 id) 0 = false
    ∧ rfb (link0 3 id) (linkBlk 0) LK_STATUS_MISWIRED = false
    ∧ ([(5, []), (6, [])] : List (BitVec 12 × List Byte)) = [(5, [])] ++ (6, []) :: [] := by
  unfold FlitGood
  decide +kernel

theorem test_bad_flit_naks : after (.flitReceive 0 (List.replicate 256 0) 5 0) (link0 3 id)
    (fun t => (linkAt t 0).nakSent && t.outbox.length == 1) = true := by decide +kernel

def laned (sp : Nat) (rx tx : Nat) (f : LinkSt → LinkSt) : State :=
  wf (wf (wf (link0 3 f) (linkBlk 0) LK_STATUS_RTSPARE sp) (linkBlk 0) LK_LANES_RXUSE rx) (linkBlk 0) LK_LANES_TXUSE tx

theorem witness_LanesAndCartridges :
    (lkState (laned 1 0x3F 0x3F id) 0 = 3 ∧ (rxUse (laned 1 0x3F 0x3F id) 0).getLsbD 2 = true ∧ (rxUse (laned 1 0x3F 0x3F id) 0).getLsbD 6 = false
      ∧ rfb (laned 1 0x3F 0x3F id) (linkBlk 0) LK_STATUS_RTSPARE = true ∧ rfb (laned 0 0x3F 0x3F id) (linkBlk 0) LK_STATUS_RTSPARE = false)
    ∧ ControlGoes (laned 1 0x3F 0x3F id) 0
    ∧ (rf (laned 1 0x3F 0x3F id) (linkBlk 0) LK_SPARE_THRESH < 2 ^ 32 - 1 ∧ rowDark (laned 1 0x3F 0x3F id) 0 = false
      ∧ rfb (laned 1 0x3F 0x3F id) (linkBlk 0) LK_CTRL_ENABLE = true)
    ∧ (spareMap (txUse (laned 1 0x3F 0x3F fun l => { l with txPass := 0x7F }) 0) 0x7F 2).isSome = true
    ∧ spareMap (txUse (laned 1 0x3F 0x7F fun l => { l with txPass := 0x3F }) 0) 0x3F 2 = none
    ∧ (linkAt (laned 1 0x3F 0x3F fun l => { l with swapRx := some 2 }) 0).swapRx = some 2
    ∧ (5 ≤ laneCount 0x5F ∧ laneCount 0x5F ≤ 6)
    ∧ (getRow base 2).lost = 0 ∧ (getRow (modRow base 2 fun r => { r with lost := 1 }) 2).lost = 1
    ∧ (getRow (modRow base 2 fun r => { r with latchOpen := true }) 2).latchOpen = true ∧ (getRow base 2).latchOpen = false
    ∧ 2 < nrow base := by
  refine ⟨by decide +kernel, ⟨by decide +kernel, by decide +kernel, by decide +kernel⟩, by decide +kernel⟩

/-! Transport packets: module 1 is reached on row 0, whose link is down. -/

/-- A packet from module 1 to a module, with its epoch and its hops. -/
def packet (m e h : Nat) (a len : Nat) (data : List Byte) : TPkt :=
  ⟨BitVec.ofNat 4 h, BitVec.ofNat 8 e, BitVec.ofNat 9 len, 4, BitVec.ofNat 64 (m * 2 ^ 55 + a), 1, 0, 0, 0, data⟩

theorem waits0 {s : State} {m : Nat} (h : (routeRow s 0 m == some 0 && lkState s 0 != 2 && lkState s 0 != 3 && !routeDown s 0 0) = true) :
    LinkWaits s 0 m := by
  simp only [Bool.and_eq_true, beq_iff_eq, bne_iff_ne, Bool.not_eq_true'] at h
  exact ⟨0, h.1.1.1, h.1.1.2, h.1.2, h.2⟩

theorem witness_TransportPacketsAreServedOrPassedOn :
    otherEpoch base 0 (packet 0 1 0 0 8 []) = true ∧ otherEpoch base 0 (packet 0 0 0 0 8 []) = false ∧ belowRun base 0 = false
    ∧ (isOwn (routed base) (addrMod (packet 0 0 0 0x1000 8 []).addr) = true
      ∧ plainTarget (routed base) (packet 0 0 0 0x1000 8 []).addr 8 = some (0, 0x1000) ∧ ¬ isRegister 0x1000
      ∧ routeDown (routed base) 0 0 = false ∧ belowRun (routed base) 0 = false ∧ waitsAt (routed base) 0 = false
      ∧ memSound (routed base) 0 0x1000 8 = true ∧ deadIn (routed base) 0 0x1000 8 = none ∧ LinkWaits (routed base) 0 1)
    ∧ deadIn failingStack 0 0 8 = some 0
    ∧ (plainTarget dozing (packet 0 0 0 (2 ^ 49 + 0x1000) 8 []).addr 8 = some (1, 0x1000) ∧ routeDown dozing 0 1 = false
      ∧ waitsAt dozing 1 = true ∧ belowRun dozing 0 = false)
    ∧ plainTarget (routed base) (packet 0 0 0 (2 ^ 48) 8 []).addr 8 = none
    ∧ (plainTarget meshDown (packet 0 0 0 (2 ^ 49 + 0x1000) 8 []).addr 8 = some (1, 0x1000) ∧ routeDown meshDown 0 1 = true
      ∧ LinkWaits (routed meshDown) 0 1)
    ∧ (isOwn (routed base) (addrMod (packet 1 0 0 0 8 []).addr) = false ∧ (packet 1 0 0 0 8 []).hop ≠ 15 ∧ (packet 1 0 15 0 8 []).hop = 15
      ∧ routeRow (routed base) 0 2 = none)
    ∧ (isOwn (modDie (wf base (dieBlk 0) DIE_LMOD_LMOD 1) 0 id) (packet 0 0 0 0 8 []).smod.toNat = true
      ∧ (packet 0 0 0 0 8 []).sdie.toNat = 0 ∧ (packet 0 0 0 0 8 []).sunit.toNat ≠ unitReq)
    ∧ ({ packet 0 0 0 0 8 [] with sunit := BitVec.ofNat 16 unitReq } : TPkt).sunit.toNat = unitReq
    ∧ (getCore base 0 0).orphans = [] := by
  refine ⟨by decide +kernel, by decide +kernel, by decide +kernel, ⟨by decide +kernel, by decide +kernel, not_register (by decide +kernel),
    by decide +kernel, by decide +kernel, by decide +kernel, by decide +kernel, by decide +kernel, waits0 (by decide +kernel)⟩, by decide +kernel,
    by decide +kernel, by decide +kernel, ⟨by decide +kernel, by decide +kernel, waits0 (by decide +kernel)⟩, by decide +kernel⟩

theorem test_write_is_answered : after (.write 0 (packet 0 0 0 0x1000 1 [9])) (routed base)
    (fun t => peek t 0 0x1000 1 == [9] && (getLink t 0).txq.length == 1) = true := by decide +kernel

/-- The notice of FID 9 in a packet; link 0 has it in its table or not. -/
def noticePkt : TPkt := packet 0 0 0 0 32 (leBytes 8 9 ++ leBytes 24 0)
def seen (cr : Nat) (l : List CrierEnt) : State :=
  wf (modLink base 0 fun x => { x with crier := l }) (linkBlk 0) LK_STATUS_CRIER cr
def ent9 : CrierEnt := (noticeOf (leBytes 8 9 ++ leBytes 24 0)).1

theorem witness_NoticesAreSuppressedAndCounted :
    (linkAt (seen 1 [ent9]) 0).rxPkts = [] ∧ belowRun (seen 1 [ent9]) 0 = false ∧ rfb (seen 1 [ent9]) (linkBlk 0) LK_STATUS_CRIER = true
    ∧ (∃ x ∈ (linkAt (seen 1 [ent9]) 0).crier, x.fid = (noticeOf noticePkt.data).1.fid)
    ∧ ((∀ x ∈ (linkAt (seen 1 []) 0).crier, x.fid ≠ 9) ∧ (linkAt (seen 1 []) 0).crier.length < 256
      ∧ isOwn (seen 1 []) (addrMod noticePkt.addr) = true ∧ base.torter.notices = [] ∧ collector (seen 1 []) = none
      ∧ heldEvents (eventRoom (seen 1 [])) ((seen 1 []).torter.events ++ [⟨0x07F0, noticeBytes ent9 1⟩]) ≤ 256)
    ∧ rfb (seen 0 []) (linkBlk 0) LK_STATUS_CRIER = false
    ∧ (∃ x ∈ [ent9], x.fid = (9 : Word)) := by decide +kernel

theorem test_notice_twice : after (.notice 0 noticePkt) (seen 1 [ent9])
    (fun t => rf t (linkBlk 0) LK_CNT_CRIERDUP == 1 && t.torter == base.torter) = true := by decide +kernel

/-! Queues, the management port, the out-of-band target, the window. -/

/-- A module that has booted and serves version 1. -/
def booted : State :=
  wf (wf { base with secure := { base.secure with stage := 7 } } bar0Blk MCI_ID_VMIN 1) bar0Blk MCI_ID_VMAX 1
/-- Its queue `q` with 128 slots each way, on or off. -/
def queueS (q on : Nat) : State :=
  let b := queueBlk q
  wf (wf (wf (wf (wf booted b Q_CFG_CMDLOG2 7) b Q_CFG_CPLLOG2 7) b Q_CMDBASE_ADDR 1) b Q_CPLBASE_ADDR 1) b Q_CFG_ENABLE on
/-- DISCOVER, its STALL 0xFFFF, with a version and a sequence number. -/
def disc (v n : Nat) : List Byte := [BitVec.ofNat 8 v, 0, 0, 0, 1, 0, 0xFF, 0xFF] ++ leBytes 8 0 ++ leBytes 8 n ++ leBytes 8 0
/-- A path that has answered its sender's packet 5. -/
def answered (p : Nat) (r : Option Reply) : State := modPath booted p fun x => { x with seqs := [⟨0, 5, r⟩] }
def aReply : Reply := mkReply booted (packetOf 0 (disc 1 5)) 0 []

theorem in_sequence {s : State} {p : Nat} {k : Pkt} (h : seqOf s p k = none) : InSequence s p k := fun x e => by rw [h] at e; cases e

theorem quiet {s : State} {p : Nat} (h : (List.range 18).all (fun q => q == p || !pathReady s q) = true) : OthersQuiet s p := by
  intro q l e
  have := List.all_eq_true.1 h q (List.mem_range.2 l)
  simpa [e] using this

theorem witness_QueuesTakePacketsInSequence :
    (queueOn (queueS 3 0) 3 = false ∧ queueOn (queueS 3 1) 3 = true ∧ rf (queueS 3 1) (queueBlk 3) Q_CFG_CMDLOG2 = 7
      ∧ fget (1 : Word) Q_CMDTAIL_TAIL = 1 ∧ fget (200 : Word) Q_CMDTAIL_TAIL = 200 ∧ rfb (queueS 3 1) (queueBlk 3) Q_STATUS_ERR = false
      ∧ rfb (queueS 3 1) bar0Blk MCI_STATUS_FATAL = false ∧ rf (queueS 3 1) (queueBlk 3) Q_CMDHEAD_HEAD = 0)
    ∧ (let ring := disc 1 1 ++ List.replicate 32 0
       64 * 1 ≤ ring.length ∧ (32 + leAt ring 8 4 + 63) / 64 = 1 ∧ headCheck (queueS 3 1) 3 (packetOf 0 (ring.take 32)) = .fine)
    ∧ (PathIdle (queueS 3 1) 3 ∧ VersionServed (queueS 3 1) (packetOf 0 (disc 1 1)) ∧ InSequence (queueS 3 1) 3 (packetOf 0 (disc 1 1))
      ∧ OthersQuiet (queueS 3 1) 3 ∧ (queueS 3 1).attach.cache = [])
    ∧ (getPath (modPath (queueS 3 1) 3 fun x => { x with current := some (packetOf 0 (disc 1 1)) }) 3).current.isSome = true
    ∧ (rf (queueS 3 0) (queueBlk 3) Q_CPLBASE_ADDR = 1 ∧ rf base (queueBlk 3) Q_CPLBASE_ADDR = 0 ∧ queueOn base 3 = false)
    ∧ (served base = false ∧ served booted = true ∧ PathIdle booted 16 ∧ VersionServed booted (packetOf 0 (disc 1 1))
      ∧ InSequence booted 16 (packetOf 0 (disc 1 1)) ∧ headCheck booted 16 (packetOf 0 (disc 1 1)) = .fine
      ∧ OthersQuiet booted 16)
    ∧ ¬ VersionServed booted (packetOf 0 (disc 2 1))
    ∧ (seqOf (answered 16 (some aReply)) 16 (packetOf 0 (disc 1 5)) = some ⟨0, 5, some aReply⟩ ∧ (packetOf 0 (disc 1 5)).seq = 5
      ∧ aReply.sender = 0 ∧ (packetOf 0 (disc 1 9)).seq = 9)
    ∧ headCheck booted 16 (packetOf 0 ([1, 0, 0x34, 0x12] ++ (disc 1 1).drop 4)) = .status scUNKNOWN_OPCODE [] := by
  refine ⟨by decide +kernel, by decide +kernel, ⟨⟨by decide +kernel, by decide +kernel, by decide +kernel⟩,
    ⟨by decide +kernel, by decide +kernel⟩, in_sequence (by decide +kernel), quiet (by decide +kernel), by decide +kernel⟩,
    by decide +kernel, by decide +kernel,
    ⟨by decide +kernel, by decide +kernel, ⟨by decide +kernel, by decide +kernel, by decide +kernel⟩, ⟨by decide +kernel, by decide +kernel⟩,
      in_sequence (by decide +kernel), by decide +kernel, quiet (by decide +kernel)⟩, fun h => absurd h.2 (by decide +kernel), by decide +kernel, by decide +kernel⟩

theorem test_unknown_opcode_is_answered : after (.mgmtDatagram 4 ([1, 0, 0x34, 0x12] ++ (disc 1 1).drop 4)) booted
    (fun t => match t.outbox with
      | [.datagram 4 b] => leAt b 2 2 == 0x0101
      | _ => false) = true := by decide +kernel

/-- Queue 3 with a reply waiting, the event queue with an event. -/
def replying (q : Nat) : State := modPath (queueS q 1) q fun x => { x with replies := [aReply] }
def eventful : State := { queueS 16 1 with torter := { (queueS 16 1).torter with events := [⟨0x07F2, [3, 2]⟩] } }

theorem witness_CompletionsReachTheirRing :
    ((getPath (replying 3) 3).replies = [aReply] ∧ (getPath (replying 3) 3).accepted = [] ∧ (32 + aReply.data.length + 63) / 64 = 1
      ∧ 1 ≤ cplRoom (replying 3) 3 ∧ OthersQuiet (replying 3) 3 ∧ (replying 3).attach.cache = [] ∧ (getPath base 3).replies = []
      ∧ cplRoom (wf (modRing (replying 3) 3 fun x => { x with cplTail := 127 }) (queueBlk 3) Q_CPLHEAD_HEAD 0) 3 < 1)
    ∧ (eventful.torter.events = ⟨0x07F2, [3, 2]⟩ :: [] ∧ queueOn eventful 16 = true ∧ rfb eventful (queueBlk 16) Q_STATUS_ERR = false
      ∧ replySlots (eventReply eventful ⟨0x07F2, [3, 2]⟩) ≤ cplRoom eventful 16 ∧ eventful.torter.droppedFault = 0
      ∧ eventful.torter.droppedOther = 0 ∧ rfb eventful bar0Blk MCI_STATUS_FATAL = false ∧ eventful.attach.cache = [])
    ∧ (let s := modRing (wf (wf (queueS 3 1) (queueBlk 3) Q_COAL_US 5) (queueBlk 3) Q_COAL_COUNT 5) 3 fun x => { x with coal := 1 }
       (getRing s 3).coal ≠ 0 ∧ rf s (queueBlk 3) Q_COAL_US ≠ 0 ∧ rf s (queueBlk 3) Q_COAL_COUNT ≠ 0)
    ∧ (getRing base 3).coal = 0
    ∧ (fget (127 : Word) Q_CPLHEAD_HEAD < cplSlots (queueS 3 1) 3 ∧ cplSlots (queueS 3 1) 3 ≤ fget (128 : Word) Q_CPLHEAD_HEAD) := by
  refine ⟨⟨by decide +kernel, by decide +kernel, by decide +kernel, by decide +kernel, quiet (by decide +kernel), by decide +kernel⟩,
    by decide +kernel⟩

/-- Die 0 on its way up from Doze. -/
def risingDie : State :=
  modPow (wf (wf (winMapped base) (pwrBlk 0) PWR_STATUS_STATE 2) (pwrBlk 0) PWR_STATUS_POINT 5) 0 fun p => { p with exits := [5, 6, 7] }
def i3cWaiting : State := modPath booted 17 fun x => { x with replies := [aReply] }

theorem witness_WindowAndOutOfBandTargetServe :
    (winRange (winMapped base) 16 8 = some [(0, 0x400000010, 8)] ∧ belowRun (winMapped base) 0 = false ∧ waitsAt (winMapped base) 0 = false
      ∧ memSound (winMapped base) 0 0x400000010 8 = true ∧ deadIn (winMapped base) 0 0x400000010 8 = none)
    ∧ (let s := poisonUnit (winMapped base) 0 0x400000010
       winRange s 16 8 = some [(0, 0x400000010, 8)] ∧ s.upsets = [] ∧ belowRun s 0 = false ∧ waitsAt s 0 = false
       ∧ (firstPoison s 0 0x400000010 8).isSome = true)
    ∧ (winRange risingDie 16 8 = some [(0, 0x400000010, 8)] ∧ [(0, 0x400000010, 8)].map (·.1) = [0] ∧ waitsAt risingDie 0 = true
      ∧ (getPow risingDie 0).exits ≠ [] ∧ pwState risingDie 0 < 4)
    ∧ winRange base 16 8 = none
    ∧ (∀ i < 8, ∀ j < 8, winAt (winMapped base) (16 + i) = winAt (winMapped base) (16 + j) → i = j)
    ∧ (i3cFree base = false ∧ i3cFree booted = true ∧ (1 :: disc 1 1).headD 0 = 1 ∧ 33 ≤ (1 :: disc 1 1).length
      ∧ headCheck booted 17 (packetOf 0 (disc 1 1)) = .fine)
    ∧ (VersionServed booted (packetOf 0 (disc 1 1)) ∧ InSequence booted 17 (packetOf 0 (disc 1 1)) ∧ OthersQuiet booted 17
      ∧ OthersQuiet i3cWaiting 17)
    ∧ (getPath booted 17).replies = [] ∧ ((getPath i3cWaiting 17).replies = [aReply] ∧ (getPath i3cWaiting 17).accepted = [])
    ∧ (booted.torter.smbusOut + min 32 ((replyBytes aReply false).length - booted.torter.smbusOut)) ≤ (replyBytes aReply false).length := by
  refine ⟨by decide +kernel, by decide +kernel, by decide +kernel, by decide +kernel, by decide +kernel, by decide +kernel,
    ⟨⟨by decide +kernel, by decide +kernel⟩, in_sequence (by decide +kernel), quiet (by decide +kernel), quiet (by decide +kernel)⟩, by decide +kernel, by decide +kernel, by decide +kernel⟩

theorem test_window_unmapped_is_poison : after (.windowRead 16 8 .clean) base (fun t => t.outbox == [.window [] true]) = true := by
  decide +kernel

/-! Commands of the module. -/

def pwrParams (mask mode dom : Nat) : List Byte :=
  leBytes 8 mask ++ [BitVec.ofNat 8 mode, BitVec.ofNat 8 dom, 0, 0, 0, 0, 0, 0] ++ leBytes 16 0
/-- Every die's four stacks in order. -/
def stacked (s : State) : State := (List.range 36).foldl (fun s d => wf s (dieBlk d) DIE_CAP_HBMOK 15) s
def allDies : Nat := 2 ^ 36 - 1
def svcPk (r c : Nat) : Pkt := pk 0x0901 0xFFFF [BitVec.ofNat 8 r, BitVec.ofNat 8 c]

/-- The cartridge of row 0 passes its checks for some signature and part, whatever they are. -/
theorem witness_cartridge (s : State) (h : objectValid s.secure 5 (getRow s 0).identity = true)
    (l : leAt (getRow s 0).identity 32 4 = 32) (q : Config.cartridgePart (leAt (getRow s 0).identity 4104 1) = true) :
    cartridgeOk s 0 = true := by simp [cartridgeOk, h, l, q]

theorem witness_ModuleCommandsTakeEffect :
    Takes (on16 base (pk 0x0502 0xFFFF [1, 2])) 16 (pk 0x0502 0xFFFF [1, 2]) 0x0502
    ∧ (Takes (on16 base (pk 0x0500 0xFFFF (pwrParams 3 (128 + 16 * 5) 255))) 16 (pk 0x0500 0xFFFF (pwrParams 3 (128 + 16 * 5) 255)) 0x0500
      ∧ leAt (pwrParams 3 (128 + 16 * 5) 255) 0 8 < 2 ^ ndie base ∧ leAt (pwrParams 3 (128 + 16 * 5) 255) 8 1 = 128 + 16 * 5
      ∧ leAt (pwrParams 3 (128 + 16 * 5) 255) 9 1 = 0xFF)
    ∧ (Takes (on16 base (pk 0x0500 0xFFFF (pwrParams 1 (8 + 3) 255))) 16 (pk 0x0500 0xFFFF (pwrParams 1 (8 + 3) 255)) 0x0500
      ∧ ∀ d ∈ maskDies base 1, pwState base d = 0 ∧ (getPow base d).entering = none ∧ (getPow base d).exits = []
        ∧ (getPow base d).waiting = [])
    ∧ (let s := modPow base 0 fun p => { p with exits := [8] }
       Takes (on16 s (pk 0x0500 0xFFFF (pwrParams 1 8 255))) 16 (pk 0x0500 0xFFFF (pwrParams 1 8 255)) 0x0500
       ∧ ∀ d ∈ maskDies s 1, pwState s d = 0 ∧ (getPow s d).entering = none ∧ (getPow s d).exits ≠ [] ∧ (getPow s d).waiting.length < 4)
    ∧ (Takes (on16 base (pk 0x0500 0xFFFF (pwrParams 1 14 255))) 16 (pk 0x0500 0xFFFF (pwrParams 1 14 255)) 0x0500)
    ∧ (Takes (on16 lx24 (svcPk 5 0)) 16 (svcPk 5 0) 0x0901 ∧ nrow lx24 ≤ 5)
    ∧ (Takes (on16 base (svcPk 0 0)) 16 (svcPk 0 0) 0x0901 ∧ Takes (on16 base (svcPk 0 1)) 16 (svcPk 0 1) 0x0901
      ∧ (getRow base 0).latchOpen = false ∧ (getRow (modRow base 0 fun r => { r with latchOpen := true }) 0).latchOpen = true
      ∧ cartridgeOk (modRow base 0 fun r => { r with identity := [] }) 0 = false ∧ (getRow base 0).lost < 2) := by
  refine ⟨takes_of ?_, ⟨takes_of ?_, ?_, ?_, ?_⟩, ⟨takes_of ?_, ?_⟩, ⟨takes_of ?_, ?_⟩, takes_of ?_, ⟨takes_of ?_, ?_⟩, takes_of ?_, takes_of ?_, ?_, ?_, ?_, ?_⟩ <;>
    decide +kernel

theorem witness_SleepAndStandbyAreRefused :
    (Takes (on16 base (pk 0x0500 0xFFFF (pwrParams 1 12 255))) 16 (pk 0x0500 0xFFFF (pwrParams 1 12 255)) 0x0500
      ∧ leAt (pwrParams 1 12 255) 8 1 % 16 = 8 + 4 ∧ ∃ d < ndie base, (leAt (pwrParams 1 12 255) 0 8).testBit d = false)
    ∧ (Takes (on16 (withStall stall7) (pk 0x0500 0xFFFF (pwrParams allDies 12 255))) 16 (pk 0x0500 0xFFFF (pwrParams allDies 12 255)) 0x0500
      ∧ getStall (withStall stall7) 0 = some stall7 ∧ stall7.openStep.isSome = true
      ∧ leAt (pwrParams allDies 12 255) 0 8 = 2 ^ ndie base - 1 ∧ leAt (pwrParams allDies 12 255) 8 1 < 128
      ∧ leAt (pwrParams allDies 12 255) 9 1 = 0xFF
      ∧ saveAreaOk (stacked base) (leAt (pwrParams allDies 12 255) 16 8) (List.range (ndie (stacked base))) = true) := by
  refine ⟨⟨takes_of ?_, ?_, ?_⟩, takes_of ?_, ?_, ?_, ?_, ?_, ?_, ?_⟩ <;> decide +kernel

/-- The smallest map: epoch 1, one position, no module placed. -/
def topoMap : List Byte := ([1, 0, 1, 0, 1, 0, 0, 0] ++ leBytes 56 0 ++ leBytes 16 0) ++ List.replicate 1024 0
def topoPk (o n : Nat) : Pkt := pk 0x0902 0xFFFF (leBytes 8 o ++ leBytes 4 n)
/-- A stall of two modules with a step open. -/
def spanning : StallSt := { stall7 with mods := [3, 0, 0, 0, 0, 0, 0, 0] }

theorem leNat_zeros : ∀ bs : List Byte, (∀ b ∈ bs, b = 0) → leNat bs = 0
  | [], _ => rfl
  | b :: bs, h => by simp [leNat, h b (by simp), leNat_zeros bs fun c m => h c (by simp [m])]

theorem topo_unplaced (l : Nat) : mapPlace topoMap l = 0 := by
  have n : mapNpos topoMap = 1 := by decide +kernel
  have m : ([1, 0, 1, 0, 1, 0, 0, 0] ++ leBytes 56 0 ++ leBytes 16 0 : List Byte).length = 80 := by decide +kernel
  have d : topoMap.drop (80 + 2 * l) = List.replicate (1024 - 2 * l) 0 := by
    rw [topoMap, List.drop_append, List.drop_of_length_le (by omega), m, List.drop_replicate, List.nil_append,
      Nat.add_sub_cancel_left]
  rw [mapPlace, n, show 64 + 16 * 1 + 2 * l = 80 + 2 * l by omega, leAt, slice, d]
  exact leNat_zeros _ fun b h => by
    simp only [List.take_replicate, List.mem_append, List.mem_replicate] at h
    rcases h with h | h <;> exact h.2

theorem topo_map_good (here : Nat) : mapOk topoMap here 0 = true := by
  have p : placesOf topoMap = [] := by
    simp [placesOf, placeOf, topo_unplaced]
  have r : ((List.range 512).all fun l => bits (mapPlace topoMap l) 14 10 == 0) = true := by
    simp [topo_unplaced, bits]
  have q : mapReserved topoMap = true := by
    rw [mapReserved, r, Bool.and_true]
    decide +kernel
  have a : (leAt topoMap 0 1 == 1 && decide (1 ≤ mapNpos topoMap) && decide (mapNpos topoMap ≤ 1024)
      && topoMap.length == 64 + 16 * mapNpos topoMap + 1024
      && decide (1 ≤ (leAt topoMap 4 4 + 2 ^ 32 - 0) % 2 ^ 32) && decide ((leAt topoMap 4 4 + 2 ^ 32 - 0) % 2 ^ 32 < 2 ^ 31)
      && mapRows topoMap) = true := by decide +kernel
  rw [mapOk]
  simp only [p, q, List.all_nil, Bool.and_true, show allDistinct [] = true from rfl]
  exact a

theorem witness_TopologyGivesEveryDieItsRoutes :
    (Takes (on16 (withStall spanning) (topoPk 0 1104)) 16 (topoPk 0 1104) 0x0902 ∧ redrawBusy (withStall spanning) = true)
    ∧ (Takes (on16 base (topoPk 0 1104)) 16 (topoPk 0 1104) 0x0902 ∧ redrawBusy base = false ∧ woffOk base 0 1104 = false)
    ∧ (woffOk (winHolds st0 topoMap) 0 1104 = true ∧ (winRead (winHolds st0 topoMap) 0 1104).2 = some topoMap
      ∧ rf (winHolds st0 topoMap) (linkBlk 0) LK_EPOCH_EPOCH = 0 ∧ mapOk topoMap Config.position 0 = true)
    ∧ mapOk [] Config.position 0 = false
    ∧ (∀ d < ndie base, linkBusy base d = false) ∧ linkBusy (link0 3 fun l => { l with txq := [(1, packet 1 0 0 0 1 [])] }) 0 = true := by
  refine ⟨⟨takes_of ?_, ?_⟩, ⟨takes_of ?_, ?_, ?_⟩, ⟨?_, ?_, ?_, topo_map_good _⟩, rfl, ?_, ?_⟩ <;> decide +kernel

/-! Firmware, SPDM. -/

/-- A firmware bundle's header (R438) with SVN 1 for any module, its digest and no body; its signature bytes are 0. -/
def bundleHead : List Byte :=
  [0x42, 0x53, 0x58, 0x4C, 1, 1, 0, 0] ++ leBytes 4 1 ++ leBytes 12 0 ++ leBytes 8 0 ++ leBytes 4 0 ++ [1] ++ leBytes 27 0
def bundle : List Byte := bundleHead ++ (leBytes 64 (shake256 []).toNat ++ leBytes 3968 0)

/-- SHAKE256 of no bytes, as FIPS 202 gives it. -/
theorem test_shake256 : (leBytes 64 (shake256 []).toNat).take 16
    = [0x46, 0xB9, 0xDD, 0x2B, 0x0B, 0xA8, 0x8D, 0x13, 0x23, 0x3B, 0x3F, 0xEB, 0x74, 0x3E, 0xEB, 0x24] := by decide +kernel
def fwBank (st : BankState) (svn : Nat) : Bank := ⟨st, [], BitVec.ofNat 32 svn, 1, 1, 1, 1, 1⟩
def banked (a b : Bank) (run : Nat) : State := { base with secure := { base.secure with banks := [a, b], running := run, stage := 7 } }
def fwPk (last off : Nat) (bs : List Byte) : Pkt :=
  pk 0x0800 0xFFFF (leBytes 4 last ++ leBytes 4 off ++ leBytes 4 bs.length ++ leBytes 4 0 ++ bs)
def actPk (f : Nat) : Pkt := pk 0x0801 0xFFFF [BitVec.ofNat 8 f]

/-- The bundle is valid where the certificate for KEYID 1 verifies to the root and its signature to that certificate's key. -/
theorem witness_bundle (x : Secure) (c : signerOk (x.signers.getD 0 []) = true)
    (h : Config.mlDsaVerify (Config.certKey (x.signers.getD 0 [])) (ctxName ++ [1]) (slice bundle 0 128) (slice bundle 128 3309) = true) :
    objectValid x 1 bundle = true := by
  have k : objectKey 1 - 1 = 0 := rfl
  have b : leWord (slice bundle 24 8) = 0 := by decide +kernel
  have r : (leAt bundle 0 4 == 0x4C585342 && leAt bundle 4 1 == 1 && leAt bundle 5 1 == 1
    && zeroBytes bundle 6 7 && zeroBytes bundle 18 23 && zeroBytes bundle 37 63 && zeroBytes bundle 3437 4095) = true := by decide +kernel
  have q : (leAt bundle 36 1 == objectKey 1) = true := by decide +kernel
  have d : (slice bundle 64 64 == leBytes 64 (shake256 (objectBody bundle)).toNat) = true := by decide +kernel
  simp only [objectValid, r, b, q, d, k, c, Bool.true_and]
  simpa using h

theorem witness_FirmwareIsStagedTriedAndCommitted :
    (let s := on16 (banked (fwBank .active 0) Bank.none 1) (fwPk 0 0 [1])
     Takes s 16 (fwPk 0 0 [1]) 0x0800 ∧ s.secure.recovery = false ∧ stageBank s = s.secure.running ∧ stageBank s < s.secure.banks.length)
    ∧ (let s := on16 (banked (fwBank .active 0) Bank.none 0) (fwPk 1 0 [1])
       Takes s 16 (fwPk 1 0 [1]) 0x0800 ∧ stageBank s = 1 ∧ stageBank s ≠ s.secure.running ∧ leAt (fwPk 1 0 [1]).params 0 1 % 2 = 1
       ∧ ([1] : List Byte).length < 4096)
    ∧ (bundle.length = 4096 ∧ objectLen bundle ≤ bundle.length ∧ leAt bundle 8 4 = 1 ∧ objectValid Secure.reset 1 (List.replicate 4096 0) = false
      ∧ objectLen (List.replicate 4096 0) ≤ 4096)
    ∧ (Takes (on16 base (actPk 0)) 16 (actPk 0) 0x0801 ∧ leAt (actPk 0).params 0 1 % 4 = 0 ∧ bankIn base .staged = none)
    ∧ (bankIn (banked (fwBank .active 0) (fwBank .staged 1) 0) .staged = some 1 ∧ bankIn (banked (fwBank .active 0) (fwBank .staged 1) 0) .trial = none
      ∧ stalls base = [] ∧ stalls (withStall st0) ≠ [])
    ∧ (Takes (on16 base (actPk 1)) 16 (actPk 1) 0x0801 ∧ leAt (actPk 1).params 0 1 % 4 ≠ 0 ∧ (getBank base 0).state ≠ .trial)
    ∧ (let s := banked (fwBank .active 0) (fwBank .trial 1) 1
       s.secure.recovery = false ∧ (getBank s 1).state = .trial ∧ s.secure.counter.toNat < (getBank s 1).svn.toNat ∧ s.secure.raises < 1024
       ∧ (getBank s 0).state = .active) := by
  refine ⟨⟨takes_of ?_, ?_⟩, ⟨takes_of ?_, ?_⟩, ?_, ⟨takes_of ?_, ?_⟩, ?_, ⟨takes_of ?_, ?_⟩, ?_⟩ <;> decide +kernel

/-- A responder that has agreed version 1.4 and ML-DSA-65, with session 0. -/
def spdm (up : Bool) : State :=
  { booted with
    secure := { booted.secure with
      spdmVersion := some 0x14, spdmAlgs := ⟨true, true, true, true⟩, sessions := [⟨0, up, [7]⟩], nextSession := 1 } }

theorem witness_SpdmRequestsAreAnswered :
    doeServed base = false ∧ doeServed booted = true ∧ (spdm false).secure.spdmAlgs.dsa = true ∧ (spdm false).secure.spdmAlgs.kem = true
    ∧ booted.secure.spdmAlgs.dsa = false ∧ (spdm false).secure.sessions.length < 2
    ∧ 2 ≤ ({ (spdm false).secure with sessions := [⟨0, true, []⟩, ⟨1, true, []⟩] }).sessions.length
    ∧ findSession (spdm false) 0 = some ⟨0, false, [7]⟩ ∧ sessionUp (spdm true) 0 = true ∧ sessionUp (spdm true) 1 = false := by decide +kernel

def good : BootResult := ⟨true, 36, [], [], []⟩
def atStage (n : Nat) : State := { State.reset with secure := { Secure.reset with stage := n } }

/-- A signed object bound to module 1 (R438), its signature bytes 0, and a module that holds three of them. -/
def objHead (ty : Nat) (body : List Byte) : List Byte :=
  [0x42, 0x53, 0x58, 0x4C, BitVec.ofNat 8 ty, 1, 0, 0] ++ leBytes 4 1 ++ leBytes 12 0 ++ leBytes 8 1 ++ leBytes 4 body.length ++ [2]
    ++ leBytes 27 0
def obj (ty : Nat) (body : List Byte) : List Byte := objHead ty body ++ leBytes 64 (shake256 body).toNat ++ leBytes 3968 0 ++ body
def holding : State :=
  { State.reset with
    secure := { Secure.reset with
      physid := 1, variantObj := obj 2 Variant.lx36.body, repairObj := obj 3 [], calibObj := obj 4 [], stage := 1 } }

theorem obj_valid (x : Secure) (ty : Nat) (body : List Byte) (p : x.physid = 1) (h : 2 ≤ ty ∧ ty ≤ 5)
    (r : (leAt (obj ty body) 0 4 == 0x4C585342 && leAt (obj ty body) 4 1 == ty && leAt (obj ty body) 5 1 == 1
      && zeroBytes (obj ty body) 6 7 && zeroBytes (obj ty body) 18 23 && zeroBytes (obj ty body) 37 63
      && zeroBytes (obj ty body) 3437 4095 && leWord (slice (obj ty body) 24 8) == 1 && leAt (obj ty body) 36 1 == 2
      && slice (obj ty body) 64 64 == leBytes 64 (shake256 (objectBody (obj ty body))).toNat) = true)
    (c : signerOk (x.signers.getD 1 []) = true)
    (v : Config.mlDsaVerify (Config.certKey (x.signers.getD 1 [])) (ctxName ++ [BitVec.ofNat 8 ty]) (slice (obj ty body) 0 128)
      (slice (obj ty body) 128 3309) = true) : objectValid x ty (obj ty body) = true := by
  have k : objectKey ty = 2 := by simp [objectKey, show ty ≠ 1 by omega]
  simp only [Bool.and_eq_true] at r
  obtain ⟨⟨⟨⟨⟨⟨⟨⟨⟨a, b⟩, d⟩, e⟩, f⟩, g⟩, i⟩, j⟩, l⟩, m⟩ := r
  have j' : leWord (slice (obj ty body) 24 8) = 1 := by simpa using j
  simp only [objectValid, k, a, b, d, e, f, g, i, j', p, l, m, c, v, beq_self_eq_true, Bool.true_or, Bool.and_true]

/-- The flash of such a module is good where its two certificates verify to the root and the three signatures to the second's key. -/
theorem witness_flash (c : signerOk (Config.signerCert 1) = true ∧ signerOk (Config.signerCert 2) = true)
    (v : ∀ p ∈ [(2, Variant.lx36.body), (3, []), (4, [])], Config.mlDsaVerify (Config.certKey (Config.signerCert 2))
      (ctxName ++ [BitVec.ofNat 8 p.1]) (slice (obj p.1 p.2) 0 128) (slice (obj p.1 p.2) 128 3309) = true) :
    flashOk holding good = true := by
  have s : holding.secure.signers = [Config.signerCert 1, Config.signerCert 2] := rfl
  have o : ∀ p ∈ [(2, Variant.lx36.body), (3, []), (4, [])], objectValid holding.secure p.1 (obj p.1 p.2) = true := by
    intro p h
    refine obj_valid holding.secure p.1 p.2 rfl ?_ ?_ c.2 (v p h)
    · revert p; decide
    · revert p; decide +kernel
  have a := o _ (.head _)
  have b := o _ (.tail _ (.head _))
  have d := o _ (.tail _ (.tail _ (.head _)))
  have n : (Variant.ofBody (objectBody holding.secure.variantObj)).ndie = 36 := by decide +kernel
  simp only [flashOk, n, s, List.length_cons, List.length_nil, List.all_cons, List.all_nil, c.1, c.2]
  exact by simp only [show holding.secure.variantObj = obj 2 Variant.lx36.body from rfl, show holding.secure.repairObj = obj 3 [] from rfl,
    show holding.secure.calibObj = obj 4 [] from rfl, a, b, d]; rfl

/-- A bank with the bundle runs where the bundle's signature verifies. -/
theorem witness_bank {s : State} {i : Nat} (b : (getBank s i).bytes = bundle) (a : (getBank s i).state = .active)
    (n : s.secure.counter.toNat ≤ (getBank s i).svn.toNat) (h : objectValid s.secure 1 bundle = true) : bankRuns s i = true := by
  simp [bankRuns, b, a, n, h]
/-- Two banks with nothing in them. -/
def bankless : State := { banked (fwBank .active 0) Bank.none 0 with secure := { (banked (fwBank .active 0) Bank.none 0).secure with stage := 2 } }

theorem witness_SupplyResetAndBootStages :
    State.reset.supply.powerGood = true ∧ ({ Supply.reset with powerGood := false }).powerGood = false
    ∧ (let u := { Supply.reset with rails := 1, powerGood := false }
       u.enabled = true ∧ u.inputOk = true ∧ u.waitRange = false ∧ u.rails < 3)
    ∧ 3 ≤ Supply.reset.rails
    ∧ bootRuns State.reset = true ∧ bootRuns { State.reset with supply := { Supply.reset with resetLow := true } } = false
    ∧ (Secure.reset.stage = 0 ∧ ((0, 0) : Nat × BitVec 32) ∈ Secure.reset.counterCopies ∧ (0, 5) ∈ [((0, 5) : Nat × BitVec 32)]
      ∧ ∀ e ∈ Secure.reset.counterCopies, e = (0, 0) ∨ e.1 < 0)
    ∧ (∀ n ∈ [1, 2, 3, 4, 5, 6, 7], (atStage n).secure.stage = n ∧ bootRuns (atStage n) = true)
    ∧ (bankIn (atStage 2) .trial = none ∧ bankIn (atStage 2) .active = some 0 ∧ bankIn bankless .trial = none
      ∧ bankIn bankless .active = some 0 ∧ bankRuns bankless 0 = false ∧ bankRuns bankless (1 - 0) = false)
    ∧ flashOk { holding with secure := { holding.secure with signers := [] } } good = false := by decide +kernel

/-! Power. -/

def powS (f : PowSt → PowSt) : State := modPow State.reset 0 f
def supplyS (f : Supply → Supply) : State := { State.reset with supply := f Supply.reset }
def asking : State := powS fun p => { p with request := some 5 }

theorem witness_StepsTemperatureCurrentAndDomains :
    ((3 : BitVec 3).toNat ≤ 5 ∧ 6 ≤ (6 : BitVec 3).toNat ∧ ∀ k < 37, portAsks State.reset k = false)
    ∧ (rotFirst 37 asking.supply.arb (portAsks asking) = some 0 ∧ (powAt asking 0).rampAsked = false ∧ (powAt asking 0).request = some 5)
    ∧ (let s := powS fun p => { p with rampAsked := true }
       rotFirst 37 s.supply.arb (portAsks s) = some 0 ∧ rampsFromOff s < 12)
    ∧ ((powAt State.reset 0).ramp = none ∧ (powAt (powS fun p => { p with ramp := some 2 }) 0).ramp = some 2)
    ∧ (clocked State.reset 0 = true ∧ (powAt State.reset 0).capT.toNat < 5 ∧ (1760 : Int) ≤ [1760].getD 0 0
      ∧ (1600 : Int) ≤ [1600].getD 0 0 ∧ clocked (powS fun p => { p with vcore := .off }) 0 = false
      ∧ (powAt State.reset 0).tripped = false ∧ (powAt State.reset 0).hbm ≠ .off)
    ∧ (let s := powS fun p => { p with capT := 1, cool := 9 }
       0 < (powAt s 0).capT.toNat ∧ hotter s [] 0 ≤ 320 ∧ 9 ≤ (powAt s 0).cool ∧ clocked s 0 = true ∧ (powAt s 0).capHot = false ∧ ∀ e < ndie s, ([] : List Int).getD e 0 < 1760)
    ∧ (Supply.reset.lugOver = false ∧ Supply.reset.lugOpen = false ∧ [130001, 0, 0, 0].sum ≤ 375000 ∧ (∃ x ∈ [130001, 130000, 5000, 5000], 130000 < x)
      ∧ (∀ x ∈ [130001, 130000, 5000, 5000], 5000 ≤ x) ∧ [130000, 0, 0, 0].sum > 100000 ∧ (∃ x ∈ [130000, 0, 0, 0], x < 5000))
    ∧ (tget none Supply.reset.domSwitching 3 = none
      ∧ tget none (supplyS fun u => { u with domSwitching := [(3, some false)] }).supply.domSwitching 3 = some false
      ∧ tget [] Supply.reset.domWaiting 3 = []) := by decide +kernel

theorem test_hot_die_is_capped : after (.thermalEvaluation [1600]) State.reset (fun t => (powAt t 0).capT == 1) = true := by decide +kernel

/-- Die 0 in a power state, at a point, with all wake events enabled. -/
def powerAt (st pt : Nat) (f : PowSt → PowSt) : State :=
  setReg (wf (wf (powS f) (pwrBlk 0) PWR_STATUS_STATE st) (pwrBlk 0) PWR_STATUS_POINT pt) (pwrBlk 0 + 8) 0x3F

theorem witness_PowerStatesClocksAndPads :
    (pwrField (wf State.reset (pwrBlk 0) PWR_MODE_TARGET 5) 0 PWR_MODE_TARGET = 5 ∧ pwState State.reset 0 = 0
      ∧ (powAt State.reset 0).entering = none ∧ (powAt State.reset 0).exits = []
      ∧ pwrField (wf State.reset (pwrBlk 0) PWR_MODE_TARGET 6) 0 PWR_MODE_TARGET = 6)
    ∧ (let s := powerAt 0 0 fun p => { p with entering := some 3 }
       (powAt s 0).entering = some 3 ∧ (entryPoints 3).find? (fun j => decide (pwPoint s 0 < j)) = some 1 ∧ quietDie s 0 = true
       ∧ quietDie base 0 = false ∧ (entryPoints 3).getLast? ≠ some 1 ∧ (powAt s 0).wake = none)
    ∧ (let s := powerAt 0 2 fun p => { p with entering := some 3 }
       (entryPoints 3).find? (fun j => decide (pwPoint s 0 < j)) = some 4 ∧ noneOutstanding s 0 = true
       ∧ noneOutstanding { s with asked := [⟨0, 0, false, 0, 8, 0, 1⟩] } 0 = false)
    ∧ (let s := powerAt 0 8 fun p => { p with entering := some 5 }
       (entryPoints 5).find? (fun j => decide (pwPoint s 0 < j)) = some 9 ∧ allAtAP8 s = false)
    ∧ (let s := powerAt 0 1 fun p => { p with entering := some 1 }
       (entryPoints 1).find? (fun j => decide (pwPoint s 0 < j)) = some 2 ∧ (entryPoints 1).getLast? = some 2 ∧ (powAt s 0).wake = none
       ∧ (powAt s 0).waiting = [])
    ∧ (let s := powerAt 0 6 fun p => { p with entering := some 3, wake := some 4 }
       (entryPoints 3).find? (fun j => decide (pwPoint s 0 < j)) = some 7 ∧ (entryPoints 3).getLast? = some 7 ∧ (powAt s 0).waiting = [])
    ∧ (let s := powerAt 0 1 fun p => { p with entering := some 1, wake := some 4 }
       wakeEnabled s 0 4 = true ∧ (powAt s 0).entering.isSome = true ∧ pwPoint s 0 ≠ 8 ∧ pwState s 0 < 4)
    ∧ (powAt (powerAt 0 1 fun p => { p with entering := some 1 }) 0).wake = none
    ∧ (let s := powerAt 2 5 id
       wakeEnabled s 0 4 = true ∧ pwState s 0 = 2 ∧ (powAt s 0).entering = none ∧ (powAt s 0).exits = [])
    ∧ wakeEnabled (setReg (powerAt 2 5 id) (pwrBlk 0 + 8) 0) 0 4 = false
    ∧ (∀ k ∈ [(2 : Fin 9), 3, 5, 6, 7, 8], (powAt (powerAt 2 5 fun p => { p with exits := [k] }) 0).exits = k :: [])
    ∧ ((powAt State.reset 0).ramping = false ∧ (powAt (powS fun p => { p with ramping := true }) 0).ramping = true
      ∧ (powAt State.reset 0).pllHeld = false ∧ (powAt State.reset 0).waiting = []
      ∧ (powAt State.reset 0).held = [] ∧ stepPermitted State.reset 0 (nearestStep State.reset 0 (max (curStep State.reset 0) (capStep State.reset 0))) = true)
    ∧ (pwrField (wf State.reset (pwrBlk 0) PWR_STATUS_PLL_LOCK 1) 0 PWR_STATUS_PLL_LOCK = 1
      ∧ pwrField (wf State.reset (pwrBlk 0) PWR_STATUS_PLL_LOCK 0) 0 PWR_STATUS_PLL_LOCK = 0) := by decide +kernel

theorem test_wake_below_run_starts_the_exit : after (.wakeEvent 0 4) (powerAt 2 5 id)
    (fun t => (powAt t 0).exits == [0, 5, 6, 8]) = true := by decide +kernel

end Sys2Proof.Tests
end

section
/-! FENCE (R73). An instruction whose part changes nothing executes whole, one whose part holds issue changes nothing but
the hold, and the part of FENCE answers one or the other by what the core still owes. -/

namespace Sys2Proof.Claims

open Sys2Proof.Machine

/-- Setting an entry to the value it has been set to changes nothing. -/
theorem tset_tset_same {α : Type} (t : Tab α) (k : Nat) (v : α) : tset (tset t k v) k v = tset t k v := by
  induction t with
  | nil => simp [tset]
  | cons p t ih =>
    obtain ⟨j, w⟩ := p
    by_cases eq : k = j
    · simp [tset, eq]
    · by_cases lt : k < j
      · simp [tset, eq, lt]
      · simp [tset, eq, lt, ih]

/-- The fetch of the buffer has entered the core in the table, so that putting back the core that an instruction's own part
sees is no change. -/
theorem setCore_atIssue {s : State} {d n : Nat} (h : Hdr) (clean : (getCore s d n).upsets = []) :
    setCore (atIssue s d n h) d n (getCore (atIssue s d n h) d n) = atIssue s d n h := by
  have cores : (atIssue s d n h).cores = (fetchBuffer s d n (pcOf s d n)).cores := by
    unfold atIssue
    dsimp only
    split
    · exact cores_setSem _ _ (by rw [upsets_fetchBuffer]; exact clean)
    · rfl
  have same : tset (atIssue s d n h).cores (coreKey d n) (getCore (atIssue s d n h) d n) = (atIssue s d n h).cores := by
    rw [getCore_congr cores, cores, fetchBuffer, getCore_modCore]
    exact tset_tset_same _ _ _
  unfold setCore
  rw [same]

/-- The offset after an instruction in backed core memory is one that the program counter can hold. -/
theorem pcOf_next_lt {s : State} {c : CoreId} {h : Hdr} (issues : Issues s c h) :
    pcOf s c.die.val c.n.val + 16 < 0x200000 := by
  have backed := issues.backed
  simp only [pcBacked, Bool.and_eq_true, decide_eq_true_eq] at backed
  omega

/-- The instruction's part answers `.done` and changes nothing: it executes whole, and its core is as before. -/
theorem executed_of_done_unchanged {s : State} {c : CoreId} {h : Hdr} {i : Instr} {body : Body} {p : Nat}
    (hdr : hdrOf i = h) (issues : Issues s c h) (fits : SignalFits s c h) (inside : p < 0x200000) (aligned : p % 16 = 0)
    (loops : NoLoopEnds (coreAt s c) p)
    (answer : body (atIssue s c.die.val c.n.val h) (pcOf s c.die.val c.n.val) = .done (atIssue s c.die.val c.n.val h) p) :
    ∃ t, onClocked c.die.val s (seqIssue s c.die.val c.n.val i body) = .next t ∧ Executed s t c h p (coreAt s c) := by
  have clean := issues.running.clean
  obtain ⟨b, core⟩ := core_atIssue h clean
  have unchanged : setCore (atIssue s c.die.val c.n.val h) c.die.val c.n.val { coreAt s c with ibuf := b }
      = atIssue s c.die.val c.n.val h := by
    rw [← core]
    exact setCore_atIssue h clean
  obtain ⟨t, next, executed⟩ := executed_of_done (k := { coreAt s c with ibuf := b }) hdr issues fits inside aligned clean
    loops (answer.trans (congrArg (Issued.done · p) unchanged.symm))
  exact ⟨t, next, { executed with core := executed.core }⟩

/-- The instruction's part answers `.hold`: the instruction is kept for the release, no count is taken for WEN, and nothing
else changes. -/
theorem held_of_hold {s : State} {c : CoreId} {h : Hdr} {i : Instr} {body : Body} {why : HoldWhy} (hdr : hdrOf i = h)
    (issues : Issues s c h)
    (answer : body (atIssue s c.die.val c.n.val h) (pcOf s c.die.val c.n.val) = .hold why) :
    ∃ t, onClocked c.die.val s (seqIssue s c.die.val c.n.val i body) = .next t
      ∧ coreAt t c = { coreAt s c with hold := some ⟨why, i⟩, ibuf := (coreAt t c).ibuf }
      ∧ OtherCores s t c ∧ t = { s with cores := t.cores } := by
  subst hdr
  obtain ⟨⟨present, clocked, clean, run, free, settled⟩, taken, backed, word⟩ := issues
  rw [onClocked_next _ present clocked, seqIssue_runs i body run free settled clean backed word taken, answer]
  refine ⟨_, rfl, ?core, ?others, rfl⟩
  case core => simp [coreAt, settle, setHold, fetchBuffer]
  case others =>
    intro e m other
    exact (other_setCore _ c _ e m other).trans (other_setCore s c _ e m other)

theorem exec_fence (c : CoreId) (h : Hdr) (o : SeqOp) (s : State) :
    exec (.fence c h o) s = onClocked c.die.val s (seqIssue s c.die.val c.n.val (.fence c h o)
      fun s pc => bodyFence s c.die.val c.n.val pc) := rfl

/-- The fetch and WEN leave what the core owes (R73) as it was. -/
theorem visible_atIssue {s : State} {d n : Nat} (h : Hdr) (clean : (getCore s d n).upsets = []) :
    visible (getCore (atIssue s d n h) d n) = visible (getCore s d n) := by
  obtain ⟨b, core⟩ := core_atIssue h clean
  rw [core]
  rfl

/-- The part of FENCE of a core that owes nothing goes on. -/
theorem bodyFence_visible {s : State} {d n : Nat} (pc : Nat) (v : visible (getCore s d n) = true) :
    bodyFence s d n pc = .done s (pc + 16) := if_pos v

/-- The part of FENCE of a core that owes a write holds issue. -/
theorem bodyFence_owing {s : State} {d n : Nat} (pc : Nat) (v : visible (getCore s d n) = false) :
    bodyFence s d n pc = .hold .fence := if_neg (by simp [v])

/-- Settles O12: FENCE's part sees what the core owed before it, and answers that it is done or that it holds issue. -/
theorem fenceWaitsForEveryWrite : Obligations.FenceWaitsForEveryWrite := by
  intro s c h o issues fits loops
  have seen := visible_atIssue h issues.running.clean
  rw [exec_fence]
  constructor
  · intro v
    have aligned : (pcOf s c.die.val c.n.val + 16) % 16 = 0 := by unfold pcOf; omega
    exact executed_of_done_unchanged rfl issues fits (pcOf_next_lt issues) aligned loops
      (bodyFence_visible _ (seen.trans v))
  · intro v
    exact held_of_hold rfl issues (bodyFence_owing _ (seen.trans v))

end Sys2Proof.Claims
end

section
/-! STEP_BEGIN (R271, R406). A command that its path takes up answers as its effect does, so its refusals are read off that
effect at the unchanged state. -/

namespace Sys2Proof.Claims

open Sys2Proof.Machine

/-- A command that its path takes up, and whose effect ends with an answer, gives that answer. -/
theorem runCmd_of_effect {s u : State} {p : Fin 18} {k : Pkt} {op st : Nat} {data : List Byte}
    {f : State → Pkt → State × Ans} (takes : Takes s p k op) (effect : f s k = (u, some (st, data))) :
    runCmd p op f s = .next (answer (setSerial u k none) p.val st data) := by
  obtain ⟨current, opcode, stall, free⟩ := takes
  simp [runCmd, current, opcode, free, stall, effect]

theorem exec_stepBegin (p : Fin 18) (s : State) : exec (.stepBegin p) s = execStepBegin p s := rfl

/-- After a first close, no step but the next one may be begun. -/
theorem stepNumberOk_eq_false {x : StallSt} {v n : Nat} (last : x.last = some v) (other : n ≠ v + 1) :
    stepNumberOk x n = false := by
  simp [stepNumberOk, last, other]

/-- STEP_BEGIN while a step is open: the test for it stands before all others. -/
theorem stepBegin_answers_stepBusy {s : State} {p : Fin 18} {k : Pkt} {x : StallSt}
    (stall : getStall s k.stall.toNat = some x) (takes : Takes s p k 0x0300) (settled : x.append = none)
    (isOpen : x.openStep.isSome = true) : Answers s (.stepBegin p) p k s scSTEP_BUSY [] := by
  rw [Answers, exec_stepBegin, execStepBegin]
  exact runCmd_of_effect takes (by simp only [namedStall, stall, settled, if_pos isOpen])

/-- STEP_BEGIN of a step number that may not be begun, with no step open: a stall without a job, a replay and an ordinary
step are all refused with the same status. -/
theorem stepBegin_answers_invalidParam {s : State} {p : Fin 18} {k : Pkt} {x : StallSt}
    (stall : getStall s k.stall.toNat = some x) (takes : Takes s p k 0x0300) (settled : x.append = none)
    (closed : x.openStep = none) (wrong : stepNumberOk x (leAt k.params 0 8) = false) :
    Answers s (.stepBegin p) p k s scINVALID_PARAM [] := by
  rw [Answers, exec_stepBegin, execStepBegin]
  refine runCmd_of_effect takes ?_
  simp only [namedStall, stall, settled, closed, wrong, Option.isSome_none, Bool.false_eq_true, if_false]
  by_cases jobless : x.job = []
  case pos => exact if_pos jobless
  case neg =>
    rw [if_neg jobless]
    cases k.flags.getLsbD 1 <;> simp

/-- Settles O38: an open step is refused first, and a step number other than the next is refused in a replay too. -/
theorem stepBeginIsRejected : Obligations.StepBeginIsRejected := by
  intro s p k x stall takes settled
  constructor
  · exact stepBegin_answers_stepBusy stall takes settled
  · intro v closed last other
    exact stepBegin_answers_invalidParam stall takes settled closed (stepNumberOk_eq_false last other)

end Sys2Proof.Claims
end

section
/-! PWR_SET to Sleep or Standby (R421, R432). A request for one of these states is refused as invalid, or turned away by a
stall, or goes on: the two refusals are read off the command's effect at the unchanged state. -/

namespace Sys2Proof.Claims

open Sys2Proof.Machine

theorem exec_pwrSet (p : Fin 18) (s : State) : exec (.pwrSet p) s = execPwrSet p s := rfl

/-! The stalls formed on the module. -/

/-- What a table answers under a key is an entry of the table. -/
theorem mem_of_tlookup {α : Type} {t : Tab α} {k : Nat} {v : α} (found : tlookup t k = some v) : (k, v) ∈ t := by
  induction t with
  | nil => simp [tlookup] at found
  | cons e t ih =>
    obtain ⟨j, w⟩ := e
    rw [tlookup] at found
    split at found
    case isTrue here =>
      cases found
      exact here ▸ List.mem_cons_self
    case isFalse =>
      split at found
      case isTrue => simp at found
      case isFalse => exact List.mem_cons_of_mem _ (ih found)

/-- A stall that is formed stands in the list of the module's stalls. -/
theorem mem_stalls_of_getStall {s : State} {g : Nat} {x : StallSt} (formed : getStall s g = some x) :
    (g, x) ∈ stalls s := by
  obtain ⟨v, found, rfl⟩ : ∃ v, tlookup s.torter.stalls g = some v ∧ v = some x := by
    cases found : tlookup s.torter.stalls g <;> simp_all [getStall, tget]
  exact List.mem_filterMap.2 ⟨_, mem_of_tlookup found, rfl⟩

/-! The dies that a mask names. -/

theorem bits_self (n d : Nat) : bits n d d = (n.testBit d).toNat := by
  rw [bits, Nat.add_sub_cancel_left, pow_one, Nat.shiftRight_eq_div_pow, Nat.toNat_testBit]

/-- A mask names every die of the part if it names as many as the part has. -/
theorem length_maskDies_eq_iff (s : State) (m : Nat) :
    (maskDies s m).length = ndie s ↔ ∀ d < ndie s, m.testBit d = true := by
  have all := List.length_filter_eq_length_iff (l := List.range (ndie s)) (p := fun d => bits m d d == 1)
  simpa [maskDies, bits_self] using all

theorem maskDies_all (s : State) : maskDies s (2 ^ ndie s - 1) = List.range (ndie s) :=
  List.filter_eq_self.2 fun d inside => by simpa [bits_self] using inside

/-! The refusals. -/

/-- The PWR_SET with parameters `b` asks for state `st`, which is Sleep or Standby. -/
structure AsksDeep (b : List Byte) (st : Nat) : Prop where
  deep : st = 4 ∨ st = 5
  mode : leAt b 8 1 % 16 = 8 + st

/-- A PWR_SET to Sleep or Standby is invalid: it breaks R432, or does not name every die (R421). -/
def DeepInvalid (s : State) (b : List Byte) (st : Nat) : Prop :=
  2 ^ ndie s ≤ leAt b 0 8
  ∨ (bits (leAt b 8 1) 7 7 = 1 ∧ 6 ≤ bits (leAt b 8 1) 6 4)
  ∨ (leAt b 9 1 ≠ 0xFF ∧ domSwitchable s (leAt b 9 1) = false)
  ∨ (st = 4 ∧ saveAreaOk s (leAt b 16 8) (maskDies s (leAt b 0 8)) = false)
  ∨ (maskDies s (leAt b 0 8)).length ≠ ndie s

/-- A stall turns the request away: an open or held one for Sleep, any for Standby (R421). -/
def DeepBusy (s : State) (st : Nat) : Prop :=
  ∃ g x, getStall s g = some x ∧ (st = 5 ∨ x.openStep.isSome = true ∨ x.mode = .held)

section

variable {s : State} {p : Fin 18} {k : Pkt} {st : Nat}

/-- Bits [2:0] of the mode byte are the state asked for. -/
theorem AsksDeep.state {b : List Byte} (asks : AsksDeep b st) : bits (leAt b 8 1) 2 0 = st := by
  obtain ⟨deep, mode⟩ := asks
  simp only [bits, Nat.shiftRight_zero]
  omega

/-- Bit 3 of the mode byte says that a state is asked for. -/
theorem AsksDeep.setState {b : List Byte} (asks : AsksDeep b st) : bits (leAt b 8 1) 3 3 = 1 := by
  obtain ⟨deep, mode⟩ := asks
  simp only [bits, Nat.shiftRight_eq_div_pow]
  omega

/-- A request that leaves out a die of the module is invalid. -/
theorem deepInvalid_of_not_all {b : List Byte} (misses : ¬ ∀ d < ndie s, (leAt b 0 8).testBit d = true) :
    DeepInvalid s b st :=
  .inr (.inr (.inr (.inr fun all => misses ((length_maskDies_eq_iff s _).1 all))))

/-- A request that names exactly the dies of the module and keeps the rest of R432 is valid. -/
theorem not_deepInvalid {b : List Byte} (whole : leAt b 0 8 = 2 ^ ndie s - 1)
    (step : bits (leAt b 8 1) 7 7 = 1 → bits (leAt b 8 1) 6 4 ≤ 5)
    (domain : leAt b 9 1 = 0xFF ∨ domSwitchable s (leAt b 9 1) = true)
    (area : st = 4 → saveAreaOk s (leAt b 16 8) (List.range (ndie s)) = true) : ¬ DeepInvalid s b st := by
  have inside : 2 ^ ndie s - 1 < 2 ^ ndie s := Nat.sub_one_lt_of_lt (Nat.two_pow_pos _)
  rw [DeepInvalid, whole, maskDies_all]
  rintro (outside | ⟨set, big⟩ | ⟨named, fixed⟩ | ⟨sleep, bad⟩ | few)
  · omega
  · have := step set
    omega
  · simp [named, fixed] at domain
  · simp [area sleep] at bad
  · simp at few

/-- The tests of R432 and of the dies named stand before those of the stalls (log 100). -/
theorem pwrSet_answers_invalidParam (takes : Takes s p k 0x0500) (asks : AsksDeep k.params st)
    (invalid : DeepInvalid s k.params st) : Answers s (.pwrSet p) p k s scINVALID_PARAM [] := by
  rw [Answers, exec_pwrSet, execPwrSet]
  refine runCmd_of_effect takes (if_pos ?_)
  rcases asks.deep with rfl | rfl <;>
    simpa [asks.state, asks.setState, DeepInvalid, or_assoc] using invalid

/-- A valid request meets the stalls: Sleep an open or held one, Standby any. -/
theorem pwrSet_answers_stallBusy (takes : Takes s p k 0x0500) (asks : AsksDeep k.params st)
    (valid : ¬ DeepInvalid s k.params st) (busy : DeepBusy s st) : Answers s (.pwrSet p) p k s scSTALL_BUSY [] := by
  rw [Answers, exec_pwrSet, execPwrSet]
  refine runCmd_of_effect takes ((if_neg ?passes).trans ?meets)
  case passes =>
    rcases asks.deep with rfl | rfl <;>
      simpa [asks.state, asks.setState, DeepInvalid, or_assoc] using valid
  case meets =>
    obtain ⟨g, x, formed, why⟩ := busy
    have listed := mem_stalls_of_getStall formed
    rcases asks.deep with rfl | rfl
    · have waits : ((stalls s).any fun y => y.2.openStep.isSome || y.2.mode == .held) = true :=
        List.any_eq_true.2 ⟨_, listed, by simpa using why⟩
      exact if_pos (by simp [asks.state, asks.setState, waits])
    · refine (if_neg ?_).trans (if_pos ?_)
      · simp [asks.state]
      · simp [asks.state, asks.setState, List.ne_nil_of_mem listed]

end

/-- Settles O53: a request that leaves out a die is invalid; one that a stall turns away gets STALL_BUSY once it is valid, and
INVALID_PARAM before that. -/
theorem sleepAndStandbyAreRefused : Obligations.SleepAndStandbyAreRefused := by
  unfold Obligations.SleepAndStandbyAreRefused
  rintro s p k _ st rfl takes deep mode
  have asks : AsksDeep k.params st := ⟨deep, mode⟩
  refine ⟨fun ⟨d, inside, missing⟩ => ?_, fun busy => ⟨?_, fun whole step domain area => ?_⟩⟩
  · refine pwrSet_answers_invalidParam takes asks (deepInvalid_of_not_all ?_)
    exact fun all => Bool.false_ne_true (missing.symm.trans (all d inside))
  · by_cases invalid : DeepInvalid s k.params st
    · exact .inl (pwrSet_answers_invalidParam takes asks invalid)
    · exact .inr (pwrSet_answers_stallBusy takes asks invalid busy)
  · refine pwrSet_answers_stallBusy takes asks (not_deepInvalid whole ?_ domain area) busy
    simp only [bits, Nat.shiftRight_eq_div_pow]
    omega

end Sys2Proof.Claims
end
